-- ==== Sys2Proof/Word.lean ====
section
/-! DEFINITION. The widths of the machine (R10, R34): register words, instruction words, bytes. -/

namespace Sys2Proof

/-- A register, queue entry or memory double word (R10). -/
abbrev Word := BitVec 64

/-- An instruction word (R34). -/
abbrev IWord := BitVec 32

/-- A byte of memory. -/
abbrev Byte := BitVec 8

/-- A Nat as a register word, modulo 2^64. -/
def Word.ofNat (n : Nat) : Word := BitVec.ofNat 64 n

/-- A Boolean as 0 or 1. -/
def boolNat (b : Bool) : Nat := if b then 1 else 0

end Sys2Proof
end

