-- ==== Sys2Proof/Syntax.lean ====
section
/-! DEFINITION. The steps of the machine: one constructor for each row of the opcode table.
A word's operands are the fields of its encoding (R35), before any check of R44.
A step without an encoding carries what names its place: a context, a core, a value written. -/

namespace Sys2Proof

/-- The kinds of a request that crosses the fabric (R379). -/
inductive RemoteKind where
  /-- load of a thread -/
  | load
  /-- store of a thread -/
  | store
  /-- `red` of a thread, with its primary opcode and type: no value returns -/
  | red (opc : BitVec 7) (typ : BitVec 2)
  /-- atomic of a thread with a returned value, with its primary opcode and type -/
  | atomic (opc : BitVec 7) (typ : BitVec 2)
  /-- engine read -/
  | engRead
  /-- engine write -/
  | engWrite
  /-- addition of an engine to an FP32 element (R73, R291): its exact value travels as FP64 data -/
  | engAdd
deriving DecidableEq, Repr

/-- A request as it arrives at its owner (R379, R380): source pod, request number, group, address, size, kind, ord, scope,
data. -/
structure RemoteReq where
  src : Nat
  num : BitVec 32
  group : BitVec 8
  addr : Word
  size : Nat
  kind : RemoteKind
  ord : BitVec 2
  scope : BitVec 3
  data : List Byte
  cmp : List Byte
deriving DecidableEq, Repr

/-- The owner's answer (R380): data or an acknowledgement, or a refusal. -/
inductive RemoteAns where
  /-- data of a load or the old value of an atomic; empty: an acknowledgement -/
  | data (d : List Byte)
  /-- NAK_UNMAPPED -/
  | nakUnmapped
  /-- NAK_PROT -/
  | nakProt
deriving DecidableEq, Repr

/-- What a BUDGET message says of its device, in watts (R371, R382). -/
structure Watts where
  draw : BitVec 16
  demand : BitVec 16
deriving DecidableEq, Repr

/-- An access to host memory that gets no completion (R364). -/
inductive HostAccess where
  /-- an access in flight, by its number -/
  | flying (op : Nat)
  /-- the next access of an engine, a die unit or an instruction fetch to the word of host memory at an offset -/
  | next (off : Nat)
  /-- a write that a die unit has made for a context -/
  | unit (ctx : Nat) (va : BitVec 64)
deriving DecidableEq, Repr

/-- A fabric port and the device at its far end (R378). -/
structure PortPeer where
  port : Nat
  peer : BitVec 8
deriving DecidableEq, Repr

/-- A part of the device that fails (R278). -/
inductive Part where
  /-- a logical cluster -/
  | cluster (c : Nat)
  /-- the copy engine of a cluster -/
  | copyEngine (c : Nat)
  /-- the Bruin engine of a cluster -/
  | bruin (c : Nat)
  /-- an LP6 channel -/
  | channel (c : Nat)
  /-- a control core -/
  | controlCore (k : Nat)
  /-- a 64-bit word of memory by its location: an error that its check bits correct, or one that they do not -/
  | word (place : Nat) (fatal : Bool)
  /-- a power block of a lane's register bank, uncorrectable -/
  | registerBlock (core bank lane block : Nat)
  /-- an accumulator tile of a team, uncorrectable -/
  | tile (team tile : Nat)
deriving DecidableEq, Repr

/-- The instruction words and the steps of the device, row by row of the opcode table. -/
inductive Instr where
  /-- NOP (R34). The all-zero word takes one issue slot and changes nothing but the PC. -/
  | nop
  /-- IADD (R80). Adds two integer sources, wrapping or saturating at the type width. -/
  | iadd (g : BitVec 3) (d : BitVec 6) (a : BitVec 7) (b : BitVec 7) (t : BitVec 2)
  /-- ISUB (R80). Subtracts source b from source a, wrapping or saturating at the type width. -/
  | isub (g : BitVec 3) (d : BitVec 6) (a : BitVec 7) (b : BitVec 7) (t : BitVec 2)
  /-- IMUL (R80). Multiplies two integers, keeping the low part or the saturated result. -/
  | imul (g : BitVec 3) (d : BitVec 6) (a : BitVec 7) (b : BitVec 7) (t : BitVec 2)
  /-- IMULH (R80). Returns the high half of the exact double-width integer product. -/
  | imulh (g : BitVec 3) (d : BitVec 6) (a : BitVec 7) (b : BitVec 7) (t : BitVec 2)
  /-- IMAD (R80). Computes x times y plus z with one reduction or clamp at the end, result to the queue. -/
  | imad (g : BitVec 3) (a : BitVec 7) (b : BitVec 7) (c : BitVec 7) (t : BitVec 1)
  /-- IMIN (R80). Returns the smaller of two integers under the type's signedness. -/
  | imin (g : BitVec 3) (d : BitVec 6) (a : BitVec 7) (b : BitVec 7) (t : BitVec 2)
  /-- IMAX (R80). Returns the larger of two integers under the type's signedness. -/
  | imax (g : BitVec 3) (d : BitVec 6) (a : BitVec 7) (b : BitVec 7) (t : BitVec 2)
  /-- IABS (R80). Returns the absolute value of a signed integer, or the value for unsigned types. -/
  | iabs (g : BitVec 3) (d : BitVec 6) (a : BitVec 7) (t : BitVec 2)
  /-- AND (R81). Bitwise AND of two sources. -/
  | and (g : BitVec 3) (d : BitVec 6) (a : BitVec 7) (b : BitVec 7) (t : BitVec 1)
  /-- OR (R81). Bitwise OR of two sources. -/
  | or (g : BitVec 3) (d : BitVec 6) (a : BitVec 7) (b : BitVec 7) (t : BitVec 1)
  /-- XOR (R81). Bitwise exclusive OR of two sources. -/
  | xor (g : BitVec 3) (d : BitVec 6) (a : BitVec 7) (b : BitVec 7) (t : BitVec 1)
  /-- ANDN (R81). Bitwise x AND NOT y. -/
  | andn (g : BitVec 3) (d : BitVec 6) (a : BitVec 7) (b : BitVec 7) (t : BitVec 1)
  /-- SHL (R81). Shifts left with zero fill, giving zero for counts at or above the width. -/
  | shl (g : BitVec 3) (d : BitVec 6) (a : BitVec 7) (b : BitVec 7) (t : BitVec 1)
  /-- SHR (R81). Logical right shift with zero fill. -/
  | shr (g : BitVec 3) (d : BitVec 6) (a : BitVec 7) (b : BitVec 7) (t : BitVec 1)
  /-- SAR (R81). Arithmetic right shift filling with the top bit. -/
  | sar (g : BitVec 3) (d : BitVec 6) (a : BitVec 7) (b : BitVec 7) (t : BitVec 1)
  /-- ROT (R81). Rotates left by the count modulo the width. -/
  | rot (g : BitVec 3) (d : BitVec 6) (a : BitVec 7) (b : BitVec 7) (t : BitVec 1)
  /-- POPC (R81). Counts the one bits of the source. -/
  | popc (g : BitVec 3) (d : BitVec 6) (a : BitVec 7) (t : BitVec 1)
  /-- CLZ (R81). Counts leading zero bits. -/
  | clz (g : BitVec 3) (d : BitVec 6) (a : BitVec 7) (t : BitVec 1)
  /-- CTZ (R81). Counts trailing zero bits. -/
  | ctz (g : BitVec 3) (d : BitVec 6) (a : BitVec 7) (t : BitVec 1)
  /-- BREV (R81). Reverses the bit order of the source. -/
  | brev (g : BitVec 3) (d : BitVec 6) (a : BitVec 7) (t : BitVec 1)
  /-- BFE (R82). Extracts a bit field given by a position and length control word, sign- or zero-extended. -/
  | bfe (g : BitVec 3) (d : BitVec 6) (a : BitVec 7) (b : BitVec 7) (t : BitVec 2)
  /-- BFI (R83). Inserts the low bits of x into a field of y described by a control word. -/
  | bfi (g : BitVec 3) (a : BitVec 7) (b : BitVec 7) (c : BitVec 7) (t : BitVec 1)
  /-- ICMP (R86). Compares two integers and writes the condition to a predicate. -/
  | icmp (g : BitVec 3) (k : BitVec 3) (p : BitVec 3) (a : BitVec 7) (b : BitVec 7) (t : BitVec 2)
  /-- LEA (R84). Computes x plus y scaled by a power of two, modulo 2^64. -/
  | lea (g : BitVec 3) (d : BitVec 6) (a : BitVec 7) (b : BitVec 7) (t : BitVec 2)
  /-- MOV (R85). Copies a 32- or 64-bit source, popping or pushing hardware queues as named. -/
  | mov (g : BitVec 3) (d : BitVec 6) (a : BitVec 7) (t : BitVec 1)
  /-- MOVI (R85). Writes a sign-extended 9-bit immediate. -/
  | movi (g : BitVec 3) (d : BitVec 6) (i : BitVec 9)
  /-- IADDI (R80). Adds a sign-extended 9-bit immediate to a 64-bit source. -/
  | iaddi (g : BitVec 3) (d : BitVec 6) (a : BitVec 7) (i : BitVec 9)
  /-- WID (R32). Extracts a field, the rank, the team part or the whole of the thread's work identifier. -/
  | wid (g : BitVec 3) (d : BitVec 6) (s : BitVec 7)
  /-- CVTA (R115). Converts between generic addresses and window offsets. -/
  | cvta (g : BitVec 3) (d : BitVec 6) (a : BitVec 7) (s : BitVec 7)
  /-- ISAP (R116). Tests which address space an address lies in and writes a predicate. -/
  | isap (g : BitVec 3) (k : BitVec 3) (p : BitVec 3) (a : BitVec 7)
  /-- PLOP (R88). Sets a predicate from a 4-entry lookup table of two predicates. -/
  | plop (g : BitVec 3) (d : BitVec 3) (a : BitVec 3) (b : BitVec 3) (l : BitVec 4)
  /-- FADD (R89). Floating-point add, rounded once. -/
  | fadd (g : BitVec 3) (d : BitVec 6) (a : BitVec 7) (b : BitVec 7) (t : BitVec 2)
  /-- FSUB (R89). Floating-point subtract, rounded once. -/
  | fsub (g : BitVec 3) (d : BitVec 6) (a : BitVec 7) (b : BitVec 7) (t : BitVec 2)
  /-- FMUL (R89). Floating-point multiply, rounded once. -/
  | fmul (g : BitVec 3) (d : BitVec 6) (a : BitVec 7) (b : BitVec 7) (t : BitVec 2)
  /-- FFMA (R89). Fused multiply-add of FP32 or FP64, rounded once, result to the queue. -/
  | ffma (g : BitVec 3) (a : BitVec 7) (b : BitVec 7) (c : BitVec 7) (t : BitVec 1)
  /-- HFMA2 (R89). Packed FP16 or BF16 fused multiply-add per element. -/
  | hfma2 (g : BitVec 3) (a : BitVec 7) (b : BitVec 7) (c : BitVec 7) (t : BitVec 1)
  /-- FMIN (R89). Returns the smaller operand under the NaN rules of R61. -/
  | fmin (g : BitVec 3) (d : BitVec 6) (a : BitVec 7) (b : BitVec 7) (t : BitVec 2)
  /-- FMAX (R89). Returns the larger operand under the NaN rules of R61. -/
  | fmax (g : BitVec 3) (d : BitVec 6) (a : BitVec 7) (b : BitVec 7) (t : BitVec 2)
  /-- FCMP (R87). Compares floating-point values exactly and writes a predicate. -/
  | fcmp (g : BitVec 3) (k : BitVec 3) (p : BitVec 3) (a : BitVec 7) (b : BitVec 7) (t : BitVec 2)
  /-- FRCP (R91). Correctly rounded reciprocal. -/
  | frcp (g : BitVec 3) (d : BitVec 6) (a : BitVec 7) (t : BitVec 2)
  /-- FRSQ (R91). Correctly rounded reciprocal square root. -/
  | frsq (g : BitVec 3) (d : BitVec 6) (a : BitVec 7) (t : BitVec 2)
  /-- FSQRT (R91). Correctly rounded square root. -/
  | fsqrt (g : BitVec 3) (d : BitVec 6) (a : BitVec 7) (t : BitVec 2)
  /-- FEX2 (R91). Correctly rounded power of two. -/
  | fex2 (g : BitVec 3) (d : BitVec 6) (a : BitVec 7) (t : BitVec 2)
  /-- FLG2 (R91). Correctly rounded base-2 logarithm. -/
  | flg2 (g : BitVec 3) (d : BitVec 6) (a : BitVec 7) (t : BitVec 2)
  /-- FSIN (R91). Correctly rounded sine with defined reduction for large arguments. -/
  | fsin (g : BitVec 3) (d : BitVec 6) (a : BitVec 7) (t : BitVec 2)
  /-- FCOS (R91). Correctly rounded cosine. -/
  | fcos (g : BitVec 3) (d : BitVec 6) (a : BitVec 7) (t : BitVec 2)
  /-- FTANH (R91). Correctly rounded hyperbolic tangent. -/
  | ftanh (g : BitVec 3) (d : BitVec 6) (a : BitVec 7) (t : BitVec 2)
  /-- FRND (R89). Rounds a float to an integral value in its own format in the RND mode. -/
  | frnd (g : BitVec 3) (d : BitVec 6) (a : BitVec 7) (t : BitVec 2)
  /-- CVT (R94). Converts between scalar integer and float formats. -/
  | cvt (g : BitVec 3) (d : BitVec 6) (a : BitVec 7) (x : BitVec 3) (y : BitVec 3)
  /-- CVT_DXB (R95). Quantises one DXB block across the issuing group from FP16, BF16 or FP32 elements with the default split. -/
  | cvtDxb (g : BitVec 3) (d : BitVec 6) (a : BitVec 7) (f : BitVec 1) (s : BitVec 2)
  /-- QPK (R96). Quantises one DXB block across the issuing group, one element per lane. -/
  | qpk (g : BitVec 3) (d : BitVec 6) (a : BitVec 7) (b : BitVec 7) (t : BitVec 1)
  /-- QUPK (R97). Decodes one DXB element to FP32. -/
  | qupk (g : BitVec 3) (d : BitVec 6) (a : BitVec 7) (b : BitVec 7) (t : BitVec 1)
  /-- MORT (R319). Computes a 30-bit Morton code from three quantised coordinates. -/
  | mort (g : BitVec 3) (d : BitVec 6) (a : BitVec 7) (b : BitVec 7)
  /-- BBU (R319). Returns the union of two FP32 intervals. -/
  | bbu (g : BitVec 3) (d : BitVec 6) (a : BitVec 7) (b : BitVec 7)
  /-- BRA (R102). Branches on threads whose guard is true, splitting the group at most in two. -/
  | bra (g : BitVec 3) (o : BitVec 22)
  /-- CALL (R103). Writes the return address to v31 and branches. -/
  | call (g : BitVec 3) (o : BitVec 22)
  /-- BRX (R104). Branches to a per-thread computed target, checking owner and alignment. -/
  | brx (g : BitVec 3) (a : BitVec 7)
  /-- REFORM (R105). Files each on thread into the bin keyed by the target, leaving its group. -/
  | reform (g : BitVec 3) (o : BitVec 22)
  /-- EXIT (R106). Ends each on thread; its issued memory operations continue. -/
  | exit (g : BitVec 3)
  /-- TRAP (R107). Posts a SOFT_TRAP record and halts the thread at the next PC. -/
  | trap (g : BitVec 3) (a : BitVec 7) (n : BitVec 8)
  /-- BKPT (R108). Posts a BREAKPOINT record and halts the thread. -/
  | bkpt (g : BitVec 3)
  /-- BKPT_STOP (R108). Posts a BREAKPOINT record, halts the thread and, if enabled, makes a precise stop of the core on the clock of issue. -/
  | bkptStop (g : BitVec 3)
  /-- PERM (R164). Each on thread receives the value of its source lane through the permute network. -/
  | perm (g : BitVec 3) (d : BitVec 6) (a : BitVec 7) (b : BitVec 7) (t : BitVec 1)
  /-- BALLOT (R165). Gathers bit j of a source from every contributing lane into a 64-bit mask. -/
  | ballot (g : BitVec 3) (d : BitVec 6) (a : BitVec 7) (j : BitVec 6)
  /-- BALLOT_P (R165). Gathers a predicate from every contributing lane into a 64-bit mask. -/
  | ballotP (g : BitVec 3) (d : BitVec 6) (k : BitVec 3)
  /-- VOTE (R166). Combines per-lane truth values and writes the outcome to a predicate. -/
  | vote (g : BitVec 3) (k : BitVec 3) (p : BitVec 3) (a : BitVec 7) (b : BitVec 7)
  /-- XLD (R167). Reads one word of the thread's x-file. -/
  | xld (g : BitVec 3) (d : BitVec 6) (a : BitVec 7) (i : BitVec 9)
  /-- XST (R168). Writes one word of the thread's x-file and makes it live. -/
  | xst (g : BitVec 3) (a : BitVec 7) (b : BitVec 7) (o : BitVec 8)
  /-- QINIT (R155). Sets a hardware queue's ring, capacity and stamp mode and wakes its blocked threads. -/
  | qinit (g : BitVec 3) (a : BitVec 7) (b : BitVec 7)
  /-- QSTAT (R159). Pushes the state of a hardware queue. -/
  | qstat (g : BitVec 3) (d : BitVec 6) (n : BitVec 3)
  /-- QCLOSE (R160). Closes a hardware queue and wakes threads blocked popping it. -/
  | qclose (g : BitVec 3) (n : BitVec 3)
  /-- SDROP (R153). Marks a segment-aligned range of the team's allocation dead. -/
  | sdrop (g : BitVec 3) (a : BitVec 7) (b : BitVec 7)
  /-- LD (R122). Loads 8 to 64 bits zero-extended, pending until the access completes. -/
  | ld (g : BitVec 3) (d : BitVec 6) (a : BitVec 7) (o : BitVec 4) (s : BitVec 2) (r : BitVec 2)
  /-- LDS (R122). Loads 8 to 32 bits sign-extended. -/
  | lds (g : BitVec 3) (d : BitVec 6) (a : BitVec 7) (o : BitVec 4) (s : BitVec 2) (r : BitVec 2)
  /-- LDQ (R122). Loads 128 bits as two pushes or into a register pair. -/
  | ldq (g : BitVec 3) (d : BitVec 6) (a : BitVec 7) (o : BitVec 4) (r : BitVec 2)
  /-- ST (R123). Stores the low bytes of a source, logging or holding on an unmapped page. -/
  | st (g : BitVec 3) (x : BitVec 7) (a : BitVec 7) (o : BitVec 4) (s : BitVec 2) (r : BitVec 2)
  /-- STQ (R123). Stores a register pair as 128 bits. -/
  | stq (g : BitVec 3) (x : BitVec 7) (a : BitVec 7) (o : BitVec 4) (r : BitVec 2)
  /-- ATOM_ADD (R129). Atomic integer add, returning the old value or as red with discard destination. -/
  | atomAdd (g : BitVec 3) (d : BitVec 6) (a : BitVec 7) (b : BitVec 7) (t : BitVec 2)
  /-- ATOM_MIN (R129). Atomic integer minimum. -/
  | atomMin (g : BitVec 3) (d : BitVec 6) (a : BitVec 7) (b : BitVec 7) (t : BitVec 2)
  /-- ATOM_MAX (R129). Atomic integer maximum. -/
  | atomMax (g : BitVec 3) (d : BitVec 6) (a : BitVec 7) (b : BitVec 7) (t : BitVec 2)
  /-- ATOM_AND (R129). Atomic bitwise AND. -/
  | atomAnd (g : BitVec 3) (d : BitVec 6) (a : BitVec 7) (b : BitVec 7) (t : BitVec 1)
  /-- ATOM_OR (R129). Atomic bitwise OR. -/
  | atomOr (g : BitVec 3) (d : BitVec 6) (a : BitVec 7) (b : BitVec 7) (t : BitVec 1)
  /-- ATOM_XOR (R129). Atomic bitwise exclusive OR. -/
  | atomXor (g : BitVec 3) (d : BitVec 6) (a : BitVec 7) (b : BitVec 7) (t : BitVec 1)
  /-- ATOM_XCHG (R129). Atomic exchange. -/
  | atomXchg (g : BitVec 3) (d : BitVec 6) (a : BitVec 7) (b : BitVec 7) (t : BitVec 1)
  /-- ATOM_CAS (R129). Atomic compare-and-swap, result to the queue. -/
  | atomCas (g : BitVec 3) (a : BitVec 7) (b : BitVec 7) (c : BitVec 7) (t : BitVec 1)
  /-- ATOM_FADD (R129). Atomic floating-point add rounded once under rn. -/
  | atomFadd (g : BitVec 3) (d : BitVec 6) (a : BitVec 7) (b : BitVec 7) (t : BitVec 1)
  /-- FENCE (R131). Orders the thread's own accesses as sc, ar, acq or rel at a scope. -/
  | fence (g : BitVec 3) (s : BitVec 7)
  /-- DRAIN (R133). Waits until the bank's earlier writes on one path are complete and acts as a full barrier. -/
  | drain (g : BitVec 3) (s : BitVec 7)
  /-- WATCH (R134). Arms the slot's single watch on a range and clears its hit flag. -/
  | watch (g : BitVec 3) (a : BitVec 7) (b : BitVec 7)
  /-- WAITW (R135). Waits for the watch to be hit or for a timeout, and pushes the outcome. -/
  | waitw (g : BitVec 3) (d : BitVec 6) (a : BitVec 7)
  /-- PRF (R124). Asks for the line holding an address to be brought into the cluster caches. -/
  | prf (g : BitVec 3) (a : BitVec 7) (o : BitVec 4) (s : BitVec 2)
  /-- RVINIT (R177). Sets the expected count of a rendezvous point. -/
  | rvinit (g : BitVec 3) (i : BitVec 6) (a : BitVec 7)
  /-- ARRIVE (R178). Counts an arrival at a rendezvous point, completing a phase and waking waiters when full. -/
  | arrive (g : BitVec 3) (i : BitVec 6)
  /-- WAITRV (R179). Waits for the phase of the caller's last arrival and acquires. -/
  | waitrv (g : BitVec 3) (i : BitVec 6)
  /-- CVINIT (R182). Sets the size of a convergence register's signing set. -/
  | cvinit (g : BitVec 3) (i : BitVec 6) (a : BitVec 7)
  /-- MSIGN (R183). Signs a convergence register, issuing its armed command at the last signature. -/
  | msign (g : BitVec 3) (i : BitVec 6)
  /-- POST (R200). Adds a card handle to a deque and pushes the outcome. -/
  | post (g : BitVec 3) (d : BitVec 6) (a : BitVec 7) (b : BitVec 7)
  /-- WORK (R201). Takes a task from the context's deques in the cluster, blocking while all are empty. -/
  | work (g : BitVec 3) (d : BitVec 6)
  /-- WORK_TRY (R201). Takes a task from the deques or pushes zero at once. -/
  | workTry (g : BitVec 3) (d : BitVec 6)
  /-- SUSP (R204). Ends the thread leaving a continuation record that waits on a timeline. -/
  | susp (g : BitVec 3) (k : BitVec 6) (a : BitVec 7) (b : BitVec 7)
  /-- SUSP_NOW (R204). Ends the thread leaving a continuation record with no condition. -/
  | suspNow (g : BitVec 3) (b : BitVec 7)
  /-- DONE (R202). Ends every thread of each team with an on thread in the group. -/
  | done (g : BitVec 3)
  /-- TDLD (R215). Snapshots a 192-byte tensor descriptor into a table entry. -/
  | tdld (g : BitVec 3) (d : BitVec 6) (a : BitVec 7) (b : BitVec 7)
  /-- TDINV (R216). Makes a descriptor table entry invalid. -/
  | tdinv (g : BitVec 3) (a : BitVec 7)
  /-- MARM (R223). Arms a convergence register with a Bruin command, issuing it if the set has signed. -/
  | marm (g : BitVec 3) (i : BitVec 6) (a : BitVec 7)
  /-- MZERO (R226). Enters a command that binds and zeroes an accumulator tile. -/
  | mzero (g : BitVec 3) (d : BitVec 6) (n : BitVec 4)
  /-- MZERO_REL (R226). Enters a command that frees an accumulator tile. -/
  | mzeroRel (g : BitVec 3) (d : BitVec 6) (n : BitVec 4)
  /-- MLD (R227). Enters a command that loads a tile from a tensor. -/
  | mld (g : BitVec 3) (d : BitVec 6) (a : BitVec 7) (b : BitVec 7)
  /-- MST (R227). Enters a command that stores a tile to a tensor, counted in IW. -/
  | mst (g : BitVec 3) (d : BitVec 6) (a : BitVec 7) (b : BitVec 7)
  /-- MCF (R232). Writes one coefficient register. -/
  | mcf (g : BitVec 3) (a : BitVec 7) (n : BitVec 4)
  /-- MCF_2 (R232). Writes a pair of coefficient registers. -/
  | mcf2 (g : BitVec 3) (a : BitVec 7) (n : BitVec 4)
  /-- MPOLY (R235). Enters a command setting a tile to a polynomial of a resident tile by Horner's rule. -/
  | mpoly (g : BitVec 3) (d : BitVec 6) (a : BitVec 7)
  /-- MITER (R236). Enters a Newton-Schulz or polynomial iteration command on a resident tile, pushing a pending status. -/
  | miter (g : BitVec 3) (d : BitVec 6) (a : BitVec 7) (b : BitVec 7)
  /-- TAIL (R137). Releases earlier writes and raises a chain's tail to max(old, b). -/
  | tail (g : BitVec 3) (a : BitVec 7) (b : BitVec 7)
  /-- WAITTL (R138). Waits for a bound timeline to reach a value and acquires. -/
  | waittl (g : BitVec 3) (a : BitVec 7) (i : BitVec 7)
  /-- TLRD (R139). Pushes the current counter of a bound timeline. -/
  | tlrd (g : BitVec 3) (d : BitVec 6) (s : BitVec 7)
  /-- TEX (R315). Samples a texture at level 0, pushing a pending colour. -/
  | tex (g : BitVec 3) (d : BitVec 6) (a : BitVec 7) (b : BitVec 7)
  /-- TEXF (R315). Samples a texture at an explicit level of detail. -/
  | texf (g : BitVec 3) (d : BitVec 6) (a : BitVec 7) (b : BitVec 7)
  /-- RQ (R318). Enters a ray query into the team's ray queue, pushing a pending hit record. -/
  | rq (g : BitVec 3) (d : BitVec 6) (a : BitVec 7) (b : BitVec 7)
  /-- PIXW (R312). Blends a colour into the Carousel pixels of one quad-record sample. -/
  | pixw (g : BitVec 3) (a : BitVec 7) (b : BitVec 7)
  /-- SYSR (R265). Pushes a system register. -/
  | sysr (g : BitVec 3) (d : BitVec 6) (n : BitVec 7)
  /-- SYSW (R265). Writes a system register; privileged. -/
  | sysw (g : BitVec 3) (a : BitVec 7) (n : BitVec 7)
  /-- TLBI (R264). Invalidates translations device-wide and waits for accesses that used them. -/
  | tlbi (g : BitVec 3) (a : BitVec 7) (b : BitVec 7)
  /-- HIMM (R46). Hint word contributing 22 bits of the consumer's wide immediate. -/
  | himm (p : BitVec 22)
  /-- HMOD (R47). Hint word carrying rounding, saturation, flush, sign, scope, cache and trap modifiers. -/
  | hmod (r : BitVec 2) (s : BitVec 1) (f : BitVec 1) (n : BitVec 3) (a : BitVec 3) (c : BitVec 3) (h : BitVec 2) (t : BitVec 1)
  /-- HSCH (R48). Hint word carrying yield and delay scheduling hints. -/
  | hsch (y : BitVec 1) (d : BitVec 4)
  /-- HDROP_LO (R49). Hint word marking v0-v15 dead after the next instruction. -/
  | hdropLo (m : BitVec 16)
  /-- HDROP_HI (R49). Hint word marking v16-v31 dead after the next instruction. -/
  | hdropHi (m : BitVec 16)
  /-- HDROP_X (R49). Hint word marking a range of x-file words dead. -/
  | hdropX (f : BitVec 10) (c : BitVec 10)
  /-- CX_RFETCH (R351). Control-core instruction copying the next fetched packet of a queue to the packet buffer. -/
  | cxRfetch (s : BitVec 5) (d : BitVec 5)
  /-- CX_BFX (R351). Control-core bit-field extract. -/
  | cxBfx (t : BitVec 5) (s : BitVec 5) (d : BitVec 5)
  /-- CX_SWAIT (R351). Control-core stall until a timeline reaches a value, then acquire. -/
  | cxSwait (t : BitVec 5) (s : BitVec 5) (d : BitVec 5)
  /-- CX_DISP (R351). Control-core acceptance of a card as LAUNCH does, returning its journal number. -/
  | cxDisp (s : BitVec 5) (d : BitVec 5)
  /-- PENDING_VALUE_FILL (R15). A long-latency value arrives and fills its queue entry, register or x-file word wherever it now stands. Operand: the access of number `op` in flight. -/
  | pendingValueFill (op : Nat)
  /-- WRITE_COMPLETE (R132). A counted write completes, advancing the bank's CW and releasing drains and stamped pops. Operand: the write of number `op` in flight. -/
  | writeComplete (op : Nat)
  /-- BIN_DRAW (R145). At the end of a clock every full or aged bin is drawn into a new group. Operand: core index: 8 × cluster + core. -/
  | binDraw (core : Nat)
  /-- WAITW_TIMEOUT (R135). A blocked waitw's timeout expires and it pushes 1. Operand: slot key of the blocked thread. -/
  | waitwTimeout (slot : Nat)
  /-- WATCHDOG (R109). A team's issued-word count would exceed BUDGET; the word is refused and the team frozen. Operand: the team whose next word is refused. -/
  | watchdog (team : Nat)
  /-- REG_BLOCK_RETENTION (R28). A register power block idle for 512 clocks goes to Retention. Operand: block 0 to 11. -/
  | regBlockRetention (core bank lane block : Nat)
  /-- SCRATCH_BANK_RETENTION (R151). A scratchpad bank not accessed for 512 clocks goes to Retention. Operand: bank 0 to 255. -/
  | scratchBankRetention (cluster bank : Nat)
  /-- READY_QUEUE_SCAN (R191). At the end of a clock the scheduler places teams of ready cards on cores that can take them. Operand: every ready and spread queue of the die. -/
  | readyQueueScan
  /-- TEAM_RETIRE (R174). A team whose threads, side-log entries and queues are done frees its allocation and tiles. -/
  | teamRetire (team : Nat)
  /-- CARD_RETIREMENT (R192). A card with nothing open waits for its writes, writes its status, advances its timeline and decrements successors. Operand: launch number of the card. -/
  | cardRetirement (card : Nat)
  /-- CARD_DEADLINE (R196). Device time reaches an open card's DEADLINE; it is killed or marked LATE. Operand: launch number of the card. -/
  | cardDeadline (card : Nat)
  /-- PATROL_SCRUB (R185). The scrubber reads and corrects live segments, killing a team on an uncorrectable error. Operand: the scrubber reads the word at slice offset `off`; `err` 0 sound, 1 single-bit, 2 uncorrectable. -/
  | patrolScrub (cluster off err : Nat)
  /-- REMOTE_POST (R200). A post arrives at another cluster's deque unit, is added and answered. Operand: number of the post in flight. -/
  | remotePost (msg : Nat)
  /-- CONTINUATION_DELIVERY (R205). A ready continuation record is delivered to the emptiest deque part when one has room. -/
  | continuationDelivery (ctx cluster : Nat)
  /-- CONTINUATION_RESUME (R206). A continuation taken by work is resumed as a new thread once a slot in its lane is free. Operand: head of the cluster's resume list. -/
  | continuationResume (cluster : Nat)
  /-- DESCRIPTOR_LOAD_COMPLETE (R215). A tdld snapshot arrives and the table entry becomes valid. Operand: number of the `tdld` in flight. -/
  | descriptorLoadComplete (op : Nat)
  /-- ISSUE_LATCH_ENTER (R219). A command held in a convergence register's issue latch enters the Bruin queue when a place frees. -/
  | issueLatchEnter (team : Nat)
  /-- BRUIN_PASS (R225). At a pass boundary the engine starts a pass of the highest-priority ready queue, checking and binding at command start. -/
  | bruinPass (cluster : Nat)
  /-- CHAIN_ENABLE (R281). A CHCFG write with EN = 1 enables a disabled chain and sets its origin. Operand: the CHCFG word written. -/
  | chainEnable (ctx chain : Nat) (w : Word)
  /-- CHAIN_DISABLE (R281). A CHCFG write with EN = 0 disables a chain, abandoning a frozen or stalled entry. Operand: the CHCFG word written. -/
  | chainDisable (ctx chain : Nat) (w : Word)
  /-- CHAIN_CONFIG_WRITE (R281). A CHCFG write with EN = 0 to a disabled chain stores BASE, LEN and CLUSTER. Operand: the CHCFG word written. -/
  | chainConfigWrite (ctx chain : Nat) (w : Word)
  /-- CHTAIL_WRITE (R298). A write raises CHTAIL to the maximum of old and new. -/
  | chtailWrite (ctx chain : Nat) (w : Word)
  /-- CHAIN_ENTRY_ACCEPT (R285). The engine finds the next sequence number published, crosses links as needed, captures and checks the entry. -/
  | chainEntryAccept (ctx chain : Nat)
  /-- CHAIN_NOP (R286). Chain operation NOP completes at once. -/
  | chainNop (ctx chain : Nat)
  /-- COPY (R287). Chain operation copying a tensor with format conversion. -/
  | copy (ctx chain : Nat)
  /-- RAW (R288). Chain operation copying a byte range. -/
  | raw (ctx chain : Nat)
  /-- FILL (R289). Chain operation filling a tensor with a pattern. -/
  | fill (ctx chain : Nat)
  /-- GATHER (R290). Chain operation gathering slices by an index tensor. -/
  | gather (ctx chain : Nat)
  /-- REDADD (R291). Chain operation adding source elements atomically into an FP32 destination, optionally scattered. -/
  | redadd (ctx chain : Nat)
  /-- CHAIN_WAIT (R286). Chain operation WAIT completes once a named timeline reaches a value, then acquires. -/
  | chainWait (ctx chain : Nat)
  /-- COPY_BURST (R296). The copy engine moves up to 4 KiB for the next chain in round-robin, stalling on an unmapped page. -/
  | copyBurst (cluster : Nat)
  /-- CHAIN_ENTRY_COMPLETE (R295). An entry's writes complete and CHDONE and the chain timeline advance. -/
  | chainEntryComplete (ctx chain : Nat)
  /-- BINNER_JOB (R309). A binner accepts a job and writes per-strip bin lists from a primitive buffer. -/
  | binnerJob (ctx binner : Nat)
  /-- RASTER_STRIP (R310). Once its binner job is complete the rasteriser writes the depth tile and walks the strip's tiles. -/
  | rasterStrip (cluster : Nat)
  /-- QUAD_RECORD_PUSH (R161). An engine pushes quad or hit records into a team queue once it is initialised and has room. -/
  | quadRecordPush (cluster : Nat)
  /-- RAY_FINISH (R318). The ray engine finishes a ray, writes barycentrics and fills the result; tl1 advances. -/
  | rayFinish (team : Nat)
  /-- ENCODER_TILE_ROW (R320). Once every slot of a 64-line group is ready or missed the encoder codes a tile row and writes frame records. -/
  | encoderTileRow (stream : Nat)
  /-- BSRD_WRITE (R320). A write raises a stream's consumed bitstream count by the monotonic-maximum rule. -/
  | bsrdWrite (stream : Nat) (w : Word)
  /-- DISPLAY_LINE (R321). At the pixel clock an active line is read from its output slot and sent; the timeline advances at frame end. -/
  | displayLine (output : Nat)
  /-- DP_LINK_LOSS (R368). A display link loses lock or the sink is unplugged; LOSS is set and firmware retrains. -/
  | dpLinkLoss (output : Nat)
  /-- HOT_PLUG (R368). A sink is attached or removed and HPD changes. -/
  | hotPlug (output : Nat) (present : Bool)
  /-- STREAM_ADMIT (R328). SCMD ADMIT checks a stream record and, if accepted, zeroes the rings and sets STATE 1. -/
  | streamAdmit (stream : Nat)
  /-- STREAM_STOP (R343). SCMD STOP sets the stream stopping; no further act starts. -/
  | streamStop (stream : Nat)
  /-- STREAM_FRAME_LIMIT (R343). Device time reaches the start of frame FIRSTF + NFRAMES and the stream stops. -/
  | streamFrameLimit (stream : Nat)
  /-- ACT_START (R332). At t_start the Ringmaster flips banks, accepts and places the act card and zeroes the render lines. -/
  | actStart (stream : Nat)
  /-- ACT_RETIRE (R334). When an act card retires the output slot is converted, halos filled and banks flipped back. -/
  | actRetire (stream : Nat)
  /-- OUTPUT_CARD_LAUNCH (R335). The output card of a strip is accepted from the template. -/
  | outputCardLaunch (stream : Nat)
  /-- ACT_ABANDON (R340). At t_need an open act is killed, its records discarded and the strip missed. -/
  | actAbandon (stream : Nat)
  /-- SYNC (R324). An IEEE 1588 Sync message arrives and its arrival time is taken. -/
  | sync (domain port : Nat)
  /-- FOLLOW_UP (R324). A Follow_Up message delivers the transmitter's t1. -/
  | followUp (domain port t1 : Nat)
  /-- DELAY_REQ (R324). A Delay_Req is sent and its departure time taken. -/
  | delayReq
  /-- DELAY_RESP (R325). A Delay_Resp completes an exchange; the offset is formed and the rate slewed or time stepped. -/
  | delayResp (domain port t4 : Nat)
  /-- ANNOUNCE (R324). An Announce message arrives and is ignored. -/
  | announce (domain port : Nat)
  /-- HOLDOVER (R325). No exchange completes for 1 s and the discipline holds its rate. -/
  | holdover
  /-- TIMENS_READ (R323). Reading TIMENS returns device time and latches TIMEFRAC. -/
  | timensRead
  /-- BANK_FLIP_LAND (R276). A requested bank flip lands at an instruction boundary outside windows and hint runs. Operand: core index. -/
  | bankFlipLand (core : Nat)
  /-- BANK_FLIP_ISSUABLE (R276). 32 clocks after a landing the incoming bank's groups become issuable and its bins are tested. Operand: core index. -/
  | bankFlipIssuable (core : Nat)
  /-- TIME_SLICE_EXPIRY (R269). A context's time slice ends and the scheduler exchanges contexts by full swaps. Operand: the context whose slice ends. -/
  | timeSliceExpiry (ctx : Nat)
  /-- CONTEXT_SWAP_OUT (R277). The spill engine stops issue, drains in-flight accesses and saves a context's state. -/
  | contextSwapOut (ctx : Nat)
  /-- CONTEXT_RESTORE (R277). The spill engine writes a saved context back, or migrates it to other cores. Operand: pairs of old and new core index; empty: back to the same cores. -/
  | contextRestore (ctx : Nat) (move : List (Nat × Nat))
  /-- TRAP_RECORD_POST (R271). A raised or waiting trap record is written to the trap queue when occupancy allows, or freezes the context. -/
  | trapRecordPost (ctx : Nat)
  /-- TQHEAD_WRITE (R270). A TQHEAD write consumes records, posting waiting records and retrying unwritable ones. -/
  | tqheadWrite (ctx : Nat) (w : Word)
  /-- REPLAY (R273). Halted page-fault threads reissue, stalled engine fetches retry and side-log entries retry. -/
  | replay (ctx : Nat)
  /-- RESUME (R273). A thread halted by SOFT_TRAP or BREAKPOINT continues at its resume PC. -/
  | resume (ctx : Nat) (card : BitVec 32) (wid : Word)
  /-- KILLTEAM (R274). A team is killed and its side log, Bruin queue, continuations and allocation discarded. -/
  | killteam (ctx : Nat) (card : BitVec 32) (wid : Word)
  /-- KILLCARD (R273). Every team and continuation of a card is killed and the card completes KILLED. -/
  | killcard (ctx : Nat) (card : BitVec 32)
  /-- UNFREEZE (R273). Clears TQOVF and resumes masters stopped by a trap-queue overflow. -/
  | unfreeze (ctx : Nat)
  /-- OWNERSHIP_WRITE (R171). A write to an ownership map entry takes effect or is refused, setting OWNREJ. -/
  | ownershipWrite (cluster granule : Nat) (v : BitVec 16)
  /-- REGISTER_WRITE (R266). A write to a register with no row of its own, applied or refused with REJ under R266. Operand: aperture offset and size in bytes. -/
  | registerWrite (off size : Nat) (w : Word)
  /-- KICK_WRITE (R344). A write raises a host queue's KICK by the monotonic-maximum rule. -/
  | kickWrite (q : Nat) (w : Word)
  /-- HOST_QUEUE_ENABLE (R344). A word-0 write with EN = 1 enables a host queue, resuming at DONE. Operand: the word 0 written. -/
  | hostQueueEnable (q : Nat) (w : Word)
  /-- HOST_QUEUE_DISABLE (R344). A word-0 write with EN = 0 stops fetching and discards prefetched packets. Operand: the word 0 written. -/
  | hostQueueDisable (q : Nat) (w : Word)
  /-- PACKET_FETCH (R349). A control core fetches a packet below KICK into its prefetch buffer. -/
  | packetFetch (q : Nat)
  /-- PACKET_NOP (R347). Host packet NOP executes at once. -/
  | packetNop (q : Nat)
  /-- LAUNCH (R347). Host packet that accepts and journals one card. -/
  | launch (q : Nat)
  /-- GRAPH (R348). Host packet that snapshots a launch-node table, sets PRED and STATUS, releases and accepts root cards. -/
  | graph (q : Nat)
  /-- WAIT (R347). Host packet that completes when a timeline reaches a value, acquiring. -/
  | wait (q : Nat)
  /-- SIGNAL (R347). Host packet that raises an event timeline, releasing at sys scope. -/
  | signal (q : Nat)
  /-- FLUSH (R347). Host packet that completes device writes to a range and clears it from cluster caches. -/
  | flush (q : Nat)
  /-- FETCHFENCE (R349). Host packet that waits for earlier cards to retire and refetches later packets with acquire. -/
  | fetchfence (q : Nat)
  /-- TRACE_SYNC_RECORD (R355). A SYNC trace record is written when LCYC reaches a multiple of 2^16 or the clock setting changes. -/
  | traceSyncRecord (cluster : Nat)
  /-- TRD_WRITE (R354). A write raises the trace consumed count by the monotonic-maximum rule. -/
  | trdWrite (cluster : Nat) (w : Word)
  /-- PRECISE_STOP_REQUEST (R356). A STOP write requests a stop of a core. Operand: core index. -/
  | preciseStopRequest (core : Nat)
  /-- PRECISE_STOP (R358). A stop lands, freezing the core's issue and writing a dump. Operand: core index. -/
  | preciseStop (core : Nat)
  /-- PRECISE_STOP_RELEASE (R357). A RELEASE write ends a stop and the open window's group issues first. Operand: core index. -/
  | preciseStopRelease (core : Nat)
  /-- COUNTER_SAMPLE (R360). At each multiple of 2^K ns every counter latches and a sample is written. -/
  | counterSample
  /-- SRD_WRITE (R360). A write raises the counter-series consumed count by the monotonic-maximum rule. -/
  | srdWrite (w : Word)
  /-- CAPTURE_START (R361). CAPCTL 1 zeroes the context's capture counts and records the time. -/
  | captureStart (ctx : Nat)
  /-- CAPTURE_STOP (R361). CAPCTL 2 writes the capture record as a release. -/
  | captureStop (ctx : Nat)
  /-- ENERGY_LOW_READ (R362). A 32-bit read of an accumulator's low half latches its high half. Operand: accumulator: 0 die, 1 module, 2 + i cluster i, 32 + c context c. -/
  | energyLowRead (acc : Nat)
  /-- POWER_GRANT (R370). Every 100 us the arbiter grants cluster budgets and clusters set their clocks or drop to the floor. Operand: watts granted to cluster 0, 1 and so on; none: no grant this period. -/
  | powerGrant (grants : List (Option Nat))
  /-- BUDGET_SEND (R371). Every 100 us a device sends its draw and demand to every pod member. Operand: this device's draw and demand, in watts. -/
  | budgetSend (draw demand : BitVec 16)
  /-- BUDGET_MESSAGE (R382). A BUDGET message arrives and the effective limit is recomputed or the message forwarded. -/
  | budgetMessage (src dst : Nat) (time : Word) (watts : Watts)
  /-- FILLER (R373). Die current falls faster than SLOPE and filler operations are issued. Operand: the context that left, and the energy of the filler in nanojoules. -/
  | filler (ctx : Nat) (nj : Nat)
  /-- POWER_KILL (R374). Current above ICRIT for 2 us kills whole contexts until it falls. -/
  | powerKill
  /-- LINK_MODULE_FAIL (R364). A UCIe module fails and is retrained while the link continues at lower bandwidth. Operand: UCIe module 0 to 7. -/
  | linkModuleFail (m : Nat)
  /-- HOST_TIMEOUT (R364). A host-link transaction gets no completion within 50 ms. -/
  | hostTimeout (access : HostAccess)
  /-- BOOT (R375). At reset the boot ROM checks and starts firmware image A or B. -/
  | boot
  /-- ATTESTATION_REQUEST (R376). An attestation request makes the device write a signed report and fire vector 64. Operand: host-window offset of the report. -/
  | attestationRequest (nonce : BitVec 256) (off : Nat)
  /-- FIRMWARE_SWITCH (R377). Servicing command 1 switches the control cores to another firmware image. -/
  | firmwareSwitch (arg : Word)
  /-- CLUSTER_REPLACE (R377). Servicing command 2 migrates a logical cluster to a spare. -/
  | clusterReplace (arg : Word)
  /-- LP6_RETRAIN (R377). Servicing command 3 retrains one LP6 channel, holding its accesses. -/
  | lp6Retrain (arg : Word)
  /-- STREAM_RECONFIGURE (R377). Servicing command 4 stops a stream and readmits it with a new record. -/
  | streamReconfigure (arg : Word)
  /-- INGRESS_REQUEST (R380). A remote request arrives and is translated and performed or refused with a NAK. -/
  | ingressRequest (r : RemoteReq)
  /-- REMOTE_RESPONSE (R381). An answer to a remote request arrives and the source completes or faults the access. -/
  | remoteResponse (op : Nat) (a : RemoteAns)
  /-- REMOTE_TIMEOUT (R381). A remote request gets no answer within FTO and its master faults. -/
  | remoteTimeout (op : Nat)
  /-- PORT_LOSS_OF_LOCK (R383). A fabric port loses lock, retrains and resends outstanding requests on ALT. -/
  | portLossOfLock (port : Nat)
  /-- PORT_RETRAINED (R383). A fabric port completes retraining and UP reads 1. -/
  | portRetrained (link : PortPeer)
  /-- ILLEGAL_OPCODE (R41). A thread issues a word that decodes to no instruction (an unassigned primary opcode, a non-zero word with opcode 0x00, a reserved hint kind, or set must-be-zero bits outside every step's pattern) and raises a precise ILLEGAL_OPCODE fault that freezes its team. Operand: the word that decodes to no instruction. -/
  | illegalOpcode (w : IWord)
  /-- HSCH_DELAY_END (R48). The DELAY count of an hsch hint runs out and the issuing group becomes issuable again with a mark of zero. -/
  | hschDelayEnd (group : Nat)
  /-- PART_FAILURE (R278). A cluster, engine, LP6 channel or control core resets or fails, and accepted cards and unstarted or idempotent teams are run again from the journal on surviving resources. -/
  | partFailure (part : Part)
  /-- HOST_MEMORY_ACCESS (R363). The host reads or writes the host window or exposed LP6 over CXL.mem, with back-invalidation, and its writes set watch hit flags. Operand: address: below 2^23 the host window, from 2^40 up LP6 + 2^40. -/
  | hostMemoryAccess (write : Bool) (addr : Nat) (data : List Byte)
  /-- UCIE_MODULE_RETRAINED (R364). A failed UCIe module finishes retraining and the host link returns to fuller bandwidth. -/
  | ucieModuleRetrained (m : Nat)
  /-- DP_LINK_TRAINED (R368). Firmware completes DisplayPort link training or retraining, and TRAINED reads 1 at the admitted stream's settings. -/
  | dpLinkTrained (output : Nat)
deriving DecidableEq, Repr

end Sys2Proof
end

