-- ==== Sys2Proof/WellFormed.lean ====
section
/-! DEFINITION. Which instruction words are well formed: the checks of R42 and R43 on fields, the reserved selectors
and destination codes of R38 and R39, and the index ranges of R36, as far as the word alone decides them.
The machine does not rely on this file: an ill-formed word raises its fault there (R44). -/

namespace Sys2Proof

/-- A legal source selector (R38): 0x5D to 0x7F are reserved. -/
def selOk (x : BitVec 7) : Bool := decide (x.toNat ≤ 0x5C)

/-- A legal destination code (R39): 0x03 to 0x0F and 0x38 to 0x3F are reserved. -/
def dstOk (d : BitVec 6) : Bool := decide (d.toNat ≤ 2) || (decide (0x10 ≤ d.toNat) && decide (d.toNat ≤ 0x37))

/-- `stq` data names vn with n at most 30 (R36). -/
def isNamedPair (x : BitVec 7) : Bool := decide (0x10 ≤ x.toNat) && decide (x.toNat ≤ 0x2E)

/-- An `ldq` destination is not v31 (R122). -/
def ldqDstOk (d : BitVec 6) : Bool := d != 0x2F

/-- The word is legal whatever the kernel's header, as far as its fields alone show (R38, R39, R42, R43); a step
without an encoding has nothing to check. -/
def Instr.wellFormed : Instr → Bool
  | .nop => true
  | .iadd _ d a b _ => (dstOk d) && (selOk a) && (selOk b)
  | .isub _ d a b _ => (dstOk d) && (selOk a) && (selOk b)
  | .imul _ d a b _ => (dstOk d) && (selOk a) && (selOk b)
  | .imulh _ d a b _ => (dstOk d) && (selOk a) && (selOk b)
  | .imad _ a b c _ => (selOk a) && (selOk b) && (selOk c)
  | .imin _ d a b _ => (dstOk d) && (selOk a) && (selOk b)
  | .imax _ d a b _ => (dstOk d) && (selOk a) && (selOk b)
  | .iabs _ d a _ => (dstOk d) && (selOk a)
  | .and _ d a b _ => (dstOk d) && (selOk a) && (selOk b)
  | .or _ d a b _ => (dstOk d) && (selOk a) && (selOk b)
  | .xor _ d a b _ => (dstOk d) && (selOk a) && (selOk b)
  | .andn _ d a b _ => (dstOk d) && (selOk a) && (selOk b)
  | .shl _ d a b _ => (dstOk d) && (selOk a) && (selOk b)
  | .shr _ d a b _ => (dstOk d) && (selOk a) && (selOk b)
  | .sar _ d a b _ => (dstOk d) && (selOk a) && (selOk b)
  | .rot _ d a b _ => (dstOk d) && (selOk a) && (selOk b)
  | .popc _ d a _ => (dstOk d) && (selOk a)
  | .clz _ d a _ => (dstOk d) && (selOk a)
  | .ctz _ d a _ => (dstOk d) && (selOk a)
  | .brev _ d a _ => (dstOk d) && (selOk a)
  | .bfe _ d a b _ => (dstOk d) && (selOk a) && (selOk b)
  | .bfi _ a b c _ => (selOk a) && (selOk b) && (selOk c)
  | .icmp _ k p a b _ => (selOk a) && (selOk b) && (k != 7) && (p != 0)
  | .lea _ d a b _ => (dstOk d) && (selOk a) && (selOk b)
  | .mov _ d a _ => (dstOk d) && (selOk a)
  | .movi _ d _ => (dstOk d)
  | .iaddi _ d a _ => (dstOk d) && (selOk a)
  | .wid _ d subw => (dstOk d) && (decide (subw.toNat ≤ 5) || subw == 8 || subw == 9 || subw == 10)
  | .cvta _ d a subw => (dstOk d) && (selOk a) && (decide (subw.toNat ≤ 6) && subw != 3)
  | .isap _ k p a => (selOk a) && (k != 7) && (p != 0)
  | .plop _ d _ _ _ => (d != 0)
  | .fadd _ d a b _ => (dstOk d) && (selOk a) && (selOk b)
  | .fsub _ d a b _ => (dstOk d) && (selOk a) && (selOk b)
  | .fmul _ d a b _ => (dstOk d) && (selOk a) && (selOk b)
  | .ffma _ a b c _ => (selOk a) && (selOk b) && (selOk c)
  | .hfma2 _ a b c _ => (selOk a) && (selOk b) && (selOk c)
  | .fmin _ d a b _ => (dstOk d) && (selOk a) && (selOk b)
  | .fmax _ d a b _ => (dstOk d) && (selOk a) && (selOk b)
  | .fcmp _ _ p a b _ => (selOk a) && (selOk b) && (p != 0)
  | .frcp _ d a _ => (dstOk d) && (selOk a)
  | .frsq _ d a _ => (dstOk d) && (selOk a)
  | .fsqrt _ d a _ => (dstOk d) && (selOk a)
  | .fex2 _ d a t => (dstOk d) && (selOk a) && (t != 1)
  | .flg2 _ d a t => (dstOk d) && (selOk a) && (t != 1)
  | .fsin _ d a t => (dstOk d) && (selOk a) && (t != 1)
  | .fcos _ d a t => (dstOk d) && (selOk a) && (t != 1)
  | .ftanh _ d a t => (dstOk d) && (selOk a) && (t != 1)
  | .frnd _ d a _ => (dstOk d) && (selOk a)
  | .cvt _ d a x y => (dstOk d) && (selOk a) && (x != y)
  | .cvtDxb _ d a _ subw => (dstOk d) && (selOk a) && (subw != 3)
  | .qpk _ d a b _ => (dstOk d) && (selOk a) && (selOk b)
  | .qupk _ d a b _ => (dstOk d) && (selOk a) && (selOk b)
  | .mort _ d a b => (dstOk d) && (selOk a) && (selOk b)
  | .bbu _ d a b => (dstOk d) && (selOk a) && (selOk b)
  | .bra _ _ => true
  | .call _ _ => true
  | .brx _ a => (selOk a)
  | .reform _ _ => true
  | .exit _ => true
  | .trap _ a _ => (selOk a)
  | .bkpt _ => true
  | .bkptStop _ => true
  | .perm _ d a b _ => (dstOk d) && (selOk a) && (selOk b)
  | .ballot _ d a _ => (dstOk d) && (selOk a)
  | .ballotP _ d _ => (dstOk d)
  | .vote _ k p a b => (selOk a) && (selOk b) && (decide (k.toNat ≤ 4)) && (p != 0)
  | .xld _ d a _ => (dstOk d) && (selOk a)
  | .xst _ a b _ => (selOk a) && (selOk b)
  | .qinit _ a b => (selOk a) && (selOk b)
  | .qstat _ d _ => (dstOk d)
  | .qclose _ _ => true
  | .sdrop _ a b => (selOk a) && (selOk b)
  | .ld _ d a _ _ _ => (dstOk d) && (selOk a)
  | .lds _ d a _ subw _ => (dstOk d) && (selOk a) && (subw != 3)
  | .ldq _ d a _ _ => (dstOk d) && (selOk a) && (ldqDstOk d)
  | .st _ x a _ _ _ => (selOk x) && (selOk a)
  | .stq _ x a _ _ => (selOk a) && (isNamedPair x)
  | .atomAdd _ d a b _ => (dstOk d) && (selOk a) && (selOk b)
  | .atomMin _ d a b _ => (dstOk d) && (selOk a) && (selOk b)
  | .atomMax _ d a b _ => (dstOk d) && (selOk a) && (selOk b)
  | .atomAnd _ d a b _ => (dstOk d) && (selOk a) && (selOk b)
  | .atomOr _ d a b _ => (dstOk d) && (selOk a) && (selOk b)
  | .atomXor _ d a b _ => (dstOk d) && (selOk a) && (selOk b)
  | .atomXchg _ d a b _ => (dstOk d) && (selOk a) && (selOk b)
  | .atomCas _ a b c _ => (selOk a) && (selOk b) && (selOk c)
  | .atomFadd _ d a b _ => (dstOk d) && (selOk a) && (selOk b)
  | .fence _ subw => (decide (subw.toNat ≤ 3))
  | .drain _ subw => (decide (subw.toNat ≤ 3))
  | .watch _ a b => (selOk a) && (selOk b)
  | .waitw _ d a => (dstOk d) && (selOk a)
  | .prf _ a _ _ => (selOk a)
  | .rvinit _ ix a => (selOk a) && (decide (ix.toNat ≤ 23))
  | .arrive _ ix => (decide (ix.toNat ≤ 23))
  | .waitrv _ ix => (decide (ix.toNat ≤ 23))
  | .cvinit _ ix a => (selOk a) && (decide (ix.toNat ≤ 15))
  | .msign _ ix => (decide (ix.toNat ≤ 15))
  | .post _ d a b => (dstOk d) && (selOk a) && (selOk b)
  | .work _ d => (dstOk d)
  | .workTry _ d => (dstOk d)
  | .susp _ k a b => (selOk a) && (selOk b) && (decide (k.toNat ≤ 0x0F))
  | .suspNow _ b => (selOk b)
  | .done _ => true
  | .tdld _ d a b => (dstOk d) && (selOk a) && (selOk b)
  | .tdinv _ a => (selOk a)
  | .marm _ ix a => (selOk a) && (decide (ix.toNat ≤ 15))
  | .mzero _ d _ => (dstOk d)
  | .mzeroRel _ d _ => (dstOk d)
  | .mld _ d a b => (dstOk d) && (selOk a) && (selOk b)
  | .mst _ d a b => (dstOk d) && (selOk a) && (selOk b)
  | .mcf _ a _ => (selOk a)
  | .mcf2 _ a n => (selOk a) && (n.toNat % 2 == 0)
  | .mpoly _ d a => (dstOk d) && (selOk a)
  | .miter _ d a b => (dstOk d) && (selOk a) && (selOk b)
  | .tail _ a b => (selOk a) && (selOk b)
  | .waittl _ a ix => (selOk a) && (decide (ix.toNat ≤ 15))
  | .tlrd _ d subw => (dstOk d) && (decide (subw.toNat ≤ 15))
  | .tex _ d a b => (dstOk d) && (selOk a) && (selOk b)
  | .texf _ d a b => (dstOk d) && (selOk a) && (selOk b)
  | .rq _ d a b => (dstOk d) && (selOk a) && (selOk b)
  | .pixw _ a b => (selOk a) && (selOk b)
  | .sysr _ d n => (dstOk d) && (decide (n.toNat ≤ 0x13))
  | .sysw _ a n => (selOk a) && (decide (n.toNat ≤ 0x13))
  | .tlbi _ a b => (selOk a) && (selOk b)
  | .himm _ => true
  | .hmod _ _ _ _ _ c _ _ => (decide (c.toNat ≤ 5))
  | .hsch _ _ => true
  | .hdropLo _ => true
  | .hdropHi _ => true
  | .hdropX _ _ => true
  | .cxRfetch _ _ => true
  | .cxBfx _ _ _ => true
  | .cxSwait _ _ _ => true
  | .cxDisp _ _ => true
  | .pendingValueFill _ => true
  | .writeComplete _ => true
  | .binDraw _ => true
  | .waitwTimeout _ => true
  | .watchdog _ => true
  | .regBlockRetention _ _ _ _ => true
  | .scratchBankRetention _ _ => true
  | .readyQueueScan => true
  | .teamRetire _ => true
  | .cardRetirement _ => true
  | .cardDeadline _ => true
  | .patrolScrub _ _ _ => true
  | .remotePost _ => true
  | .continuationDelivery _ _ => true
  | .continuationResume _ => true
  | .descriptorLoadComplete _ => true
  | .issueLatchEnter _ => true
  | .bruinPass _ => true
  | .chainEnable _ _ _ => true
  | .chainDisable _ _ _ => true
  | .chainConfigWrite _ _ _ => true
  | .chtailWrite _ _ _ => true
  | .chainEntryAccept _ _ => true
  | .chainNop _ _ => true
  | .copy _ _ => true
  | .raw _ _ => true
  | .fill _ _ => true
  | .gather _ _ => true
  | .redadd _ _ => true
  | .chainWait _ _ => true
  | .copyBurst _ => true
  | .chainEntryComplete _ _ => true
  | .binnerJob _ _ => true
  | .rasterStrip _ => true
  | .quadRecordPush _ => true
  | .rayFinish _ => true
  | .encoderTileRow _ => true
  | .bsrdWrite _ _ => true
  | .displayLine _ => true
  | .dpLinkLoss _ => true
  | .hotPlug _ _ => true
  | .streamAdmit _ => true
  | .streamStop _ => true
  | .streamFrameLimit _ => true
  | .actStart _ => true
  | .actRetire _ => true
  | .outputCardLaunch _ => true
  | .actAbandon _ => true
  | .sync _ _ => true
  | .followUp _ _ _ => true
  | .delayReq => true
  | .delayResp _ _ _ => true
  | .announce _ _ => true
  | .holdover => true
  | .timensRead => true
  | .bankFlipLand _ => true
  | .bankFlipIssuable _ => true
  | .timeSliceExpiry _ => true
  | .contextSwapOut _ => true
  | .contextRestore _ _ => true
  | .trapRecordPost _ => true
  | .tqheadWrite _ _ => true
  | .replay _ => true
  | .resume _ _ _ => true
  | .killteam _ _ _ => true
  | .killcard _ _ => true
  | .unfreeze _ => true
  | .ownershipWrite _ _ _ => true
  | .registerWrite _ _ _ => true
  | .kickWrite _ _ => true
  | .hostQueueEnable _ _ => true
  | .hostQueueDisable _ _ => true
  | .packetFetch _ => true
  | .packetNop _ => true
  | .launch _ => true
  | .graph _ => true
  | .wait _ => true
  | .signal _ => true
  | .flush _ => true
  | .fetchfence _ => true
  | .traceSyncRecord _ => true
  | .trdWrite _ _ => true
  | .preciseStopRequest _ => true
  | .preciseStop _ => true
  | .preciseStopRelease _ => true
  | .counterSample => true
  | .srdWrite _ => true
  | .captureStart _ => true
  | .captureStop _ => true
  | .energyLowRead _ => true
  | .powerGrant _ => true
  | .budgetSend _ _ => true
  | .budgetMessage _ _ _ _ => true
  | .filler _ _ => true
  | .powerKill => true
  | .linkModuleFail _ => true
  | .hostTimeout _ => true
  | .boot => true
  | .attestationRequest _ _ => true
  | .firmwareSwitch _ => true
  | .clusterReplace _ => true
  | .lp6Retrain _ => true
  | .streamReconfigure _ => true
  | .ingressRequest _ => true
  | .remoteResponse _ _ => true
  | .remoteTimeout _ => true
  | .portLossOfLock _ => true
  | .portRetrained _ => true
  | .illegalOpcode _ => true
  | .hschDelayEnd _ => true
  | .partFailure _ => true
  | .hostMemoryAccess _ _ _ => true
  | .ucieModuleRetrained _ => true
  | .dpLinkTrained _ => true

end Sys2Proof
end

