-- ==== Sys2Proof/Decode.lean ====
section
/-! DEFINITION. Decoding and encoding of instruction words (R34 to R36, R41, and the encodings that stand with each
instruction), and of the control cores' extension words (R351). A word that matches no row is refused. -/

namespace Sys2Proof

/-- `n` bits of a word from bit `lo` up (R2). -/
def bitsAt (w : IWord) (lo n : Nat) : BitVec n := BitVec.ofNat n (w.toNat / 2 ^ lo)

/-- Bits `lo` to `lo + n - 1` of a word as a number. -/
def natAt (w : IWord) (lo n : Nat) : Nat := w.toNat / 2 ^ lo % 2 ^ n

/-- The instruction that a thread's word stands for (R35, R41): by primary opcode, then by the fixed bits of the row.
None: the word decodes to no instruction, which raises ILLEGAL_OPCODE (R41, R42). -/
def decodeWord (w : IWord) : Option Instr :=
  match natAt w 25 7 with
  | 0 => if w = 0 then some .nop else none
  | 0x01 => some (.iadd (bitsAt w 22 3) (bitsAt w 16 6) (bitsAt w 9 7) (bitsAt w 2 7) (bitsAt w 0 2))
  | 0x02 => some (.isub (bitsAt w 22 3) (bitsAt w 16 6) (bitsAt w 9 7) (bitsAt w 2 7) (bitsAt w 0 2))
  | 0x03 => some (.imul (bitsAt w 22 3) (bitsAt w 16 6) (bitsAt w 9 7) (bitsAt w 2 7) (bitsAt w 0 2))
  | 0x04 => some (.imulh (bitsAt w 22 3) (bitsAt w 16 6) (bitsAt w 9 7) (bitsAt w 2 7) (bitsAt w 0 2))
  | 0x05 => some (.imad (bitsAt w 22 3) (bitsAt w 15 7) (bitsAt w 8 7) (bitsAt w 1 7) (bitsAt w 0 1))
  | 0x06 => some (.imin (bitsAt w 22 3) (bitsAt w 16 6) (bitsAt w 9 7) (bitsAt w 2 7) (bitsAt w 0 2))
  | 0x07 => some (.imax (bitsAt w 22 3) (bitsAt w 16 6) (bitsAt w 9 7) (bitsAt w 2 7) (bitsAt w 0 2))
  | 0x08 => if natAt w 2 7 = 0 then some (.iabs (bitsAt w 22 3) (bitsAt w 16 6) (bitsAt w 9 7) (bitsAt w 0 2)) else none
  | 0x09 => if natAt w 0 1 = 0 then some (.and (bitsAt w 22 3) (bitsAt w 16 6) (bitsAt w 9 7) (bitsAt w 2 7) (bitsAt w 1 1)) else none
  | 0x0A => if natAt w 0 1 = 0 then some (.or (bitsAt w 22 3) (bitsAt w 16 6) (bitsAt w 9 7) (bitsAt w 2 7) (bitsAt w 1 1)) else none
  | 0x0B => if natAt w 0 1 = 0 then some (.xor (bitsAt w 22 3) (bitsAt w 16 6) (bitsAt w 9 7) (bitsAt w 2 7) (bitsAt w 1 1)) else none
  | 0x0C => if natAt w 0 1 = 0 then some (.andn (bitsAt w 22 3) (bitsAt w 16 6) (bitsAt w 9 7) (bitsAt w 2 7) (bitsAt w 1 1)) else none
  | 0x0D => if natAt w 0 1 = 0 then some (.shl (bitsAt w 22 3) (bitsAt w 16 6) (bitsAt w 9 7) (bitsAt w 2 7) (bitsAt w 1 1)) else none
  | 0x0E => if natAt w 0 1 = 0 then some (.shr (bitsAt w 22 3) (bitsAt w 16 6) (bitsAt w 9 7) (bitsAt w 2 7) (bitsAt w 1 1)) else none
  | 0x0F => if natAt w 0 1 = 0 then some (.sar (bitsAt w 22 3) (bitsAt w 16 6) (bitsAt w 9 7) (bitsAt w 2 7) (bitsAt w 1 1)) else none
  | 0x10 => if natAt w 0 1 = 0 then some (.rot (bitsAt w 22 3) (bitsAt w 16 6) (bitsAt w 9 7) (bitsAt w 2 7) (bitsAt w 1 1)) else none
  | 0x11 => if natAt w 0 1 = 0 ∧ natAt w 2 7 = 0 then some (.popc (bitsAt w 22 3) (bitsAt w 16 6) (bitsAt w 9 7) (bitsAt w 1 1)) else none
  | 0x12 => if natAt w 0 1 = 0 ∧ natAt w 2 7 = 0 then some (.clz (bitsAt w 22 3) (bitsAt w 16 6) (bitsAt w 9 7) (bitsAt w 1 1)) else none
  | 0x13 => if natAt w 0 1 = 0 ∧ natAt w 2 7 = 0 then some (.ctz (bitsAt w 22 3) (bitsAt w 16 6) (bitsAt w 9 7) (bitsAt w 1 1)) else none
  | 0x14 => if natAt w 0 1 = 0 ∧ natAt w 2 7 = 0 then some (.brev (bitsAt w 22 3) (bitsAt w 16 6) (bitsAt w 9 7) (bitsAt w 1 1)) else none
  | 0x15 => some (.bfe (bitsAt w 22 3) (bitsAt w 16 6) (bitsAt w 9 7) (bitsAt w 2 7) (bitsAt w 0 2))
  | 0x16 => some (.bfi (bitsAt w 22 3) (bitsAt w 15 7) (bitsAt w 8 7) (bitsAt w 1 7) (bitsAt w 0 1))
  | 0x17 => some (.icmp (bitsAt w 22 3) (bitsAt w 19 3) (bitsAt w 16 3) (bitsAt w 9 7) (bitsAt w 2 7) (bitsAt w 0 2))
  | 0x18 => some (.lea (bitsAt w 22 3) (bitsAt w 16 6) (bitsAt w 9 7) (bitsAt w 2 7) (bitsAt w 0 2))
  | 0x19 => if natAt w 0 1 = 0 ∧ natAt w 2 7 = 0 then some (.mov (bitsAt w 22 3) (bitsAt w 16 6) (bitsAt w 9 7) (bitsAt w 1 1)) else none
  | 0x1A => if natAt w 9 7 = 0 then some (.movi (bitsAt w 22 3) (bitsAt w 16 6) (bitsAt w 0 9)) else none
  | 0x1B => some (.iaddi (bitsAt w 22 3) (bitsAt w 16 6) (bitsAt w 9 7) (bitsAt w 0 9))
  | 0x1C => if natAt w 0 2 = 0 ∧ natAt w 9 7 = 0 then some (.wid (bitsAt w 22 3) (bitsAt w 16 6) (bitsAt w 2 7)) else none
  | 0x1D => if natAt w 0 2 = 0 then some (.cvta (bitsAt w 22 3) (bitsAt w 16 6) (bitsAt w 9 7) (bitsAt w 2 7)) else none
  | 0x1E => if natAt w 0 9 = 0 then some (.isap (bitsAt w 22 3) (bitsAt w 19 3) (bitsAt w 16 3) (bitsAt w 9 7)) else none
  | 0x1F => if natAt w 0 9 = 0 then some (.plop (bitsAt w 22 3) (bitsAt w 19 3) (bitsAt w 16 3) (bitsAt w 13 3) (bitsAt w 9 4)) else none
  | 0x20 => some (.fadd (bitsAt w 22 3) (bitsAt w 16 6) (bitsAt w 9 7) (bitsAt w 2 7) (bitsAt w 0 2))
  | 0x21 => some (.fsub (bitsAt w 22 3) (bitsAt w 16 6) (bitsAt w 9 7) (bitsAt w 2 7) (bitsAt w 0 2))
  | 0x22 => some (.fmul (bitsAt w 22 3) (bitsAt w 16 6) (bitsAt w 9 7) (bitsAt w 2 7) (bitsAt w 0 2))
  | 0x23 => some (.ffma (bitsAt w 22 3) (bitsAt w 15 7) (bitsAt w 8 7) (bitsAt w 1 7) (bitsAt w 0 1))
  | 0x24 => some (.hfma2 (bitsAt w 22 3) (bitsAt w 15 7) (bitsAt w 8 7) (bitsAt w 1 7) (bitsAt w 0 1))
  | 0x25 => some (.fmin (bitsAt w 22 3) (bitsAt w 16 6) (bitsAt w 9 7) (bitsAt w 2 7) (bitsAt w 0 2))
  | 0x26 => some (.fmax (bitsAt w 22 3) (bitsAt w 16 6) (bitsAt w 9 7) (bitsAt w 2 7) (bitsAt w 0 2))
  | 0x27 => some (.fcmp (bitsAt w 22 3) (bitsAt w 19 3) (bitsAt w 16 3) (bitsAt w 9 7) (bitsAt w 2 7) (bitsAt w 0 2))
  | 0x28 => if natAt w 2 7 = 0 then some (.frcp (bitsAt w 22 3) (bitsAt w 16 6) (bitsAt w 9 7) (bitsAt w 0 2)) else none
  | 0x29 => if natAt w 2 7 = 0 then some (.frsq (bitsAt w 22 3) (bitsAt w 16 6) (bitsAt w 9 7) (bitsAt w 0 2)) else none
  | 0x2A => if natAt w 2 7 = 0 then some (.fsqrt (bitsAt w 22 3) (bitsAt w 16 6) (bitsAt w 9 7) (bitsAt w 0 2)) else none
  | 0x2B => if natAt w 2 7 = 0 then some (.fex2 (bitsAt w 22 3) (bitsAt w 16 6) (bitsAt w 9 7) (bitsAt w 0 2)) else none
  | 0x2C => if natAt w 2 7 = 0 then some (.flg2 (bitsAt w 22 3) (bitsAt w 16 6) (bitsAt w 9 7) (bitsAt w 0 2)) else none
  | 0x2D => if natAt w 2 7 = 0 then some (.fsin (bitsAt w 22 3) (bitsAt w 16 6) (bitsAt w 9 7) (bitsAt w 0 2)) else none
  | 0x2E => if natAt w 2 7 = 0 then some (.fcos (bitsAt w 22 3) (bitsAt w 16 6) (bitsAt w 9 7) (bitsAt w 0 2)) else none
  | 0x2F => if natAt w 2 7 = 0 then some (.ftanh (bitsAt w 22 3) (bitsAt w 16 6) (bitsAt w 9 7) (bitsAt w 0 2)) else none
  | 0x30 => if natAt w 2 7 = 0 then some (.frnd (bitsAt w 22 3) (bitsAt w 16 6) (bitsAt w 9 7) (bitsAt w 0 2)) else none
  | 0x31 => if natAt w 0 3 = 4 ∧ natAt w 5 1 = 1 ∧ natAt w 7 2 = 0 then some (.cvtDxb (bitsAt w 22 3) (bitsAt w 16 6) (bitsAt w 9 7) (bitsAt w 6 1) (bitsAt w 3 2)) else if natAt w 0 3 = 0 then some (.cvt (bitsAt w 22 3) (bitsAt w 16 6) (bitsAt w 9 7) (bitsAt w 6 3) (bitsAt w 3 3)) else none
  | 0x32 => if natAt w 1 1 = 0 then some (.qpk (bitsAt w 22 3) (bitsAt w 16 6) (bitsAt w 9 7) (bitsAt w 2 7) (bitsAt w 0 1)) else none
  | 0x33 => if natAt w 1 1 = 0 then some (.qupk (bitsAt w 22 3) (bitsAt w 16 6) (bitsAt w 9 7) (bitsAt w 2 7) (bitsAt w 0 1)) else none
  | 0x34 => if natAt w 0 2 = 0 then some (.mort (bitsAt w 22 3) (bitsAt w 16 6) (bitsAt w 9 7) (bitsAt w 2 7)) else none
  | 0x35 => if natAt w 0 2 = 0 then some (.bbu (bitsAt w 22 3) (bitsAt w 16 6) (bitsAt w 9 7) (bitsAt w 2 7)) else none
  | 0x38 => some (.bra (bitsAt w 22 3) (bitsAt w 0 22))
  | 0x39 => some (.call (bitsAt w 22 3) (bitsAt w 0 22))
  | 0x3A => if natAt w 0 9 = 0 ∧ natAt w 16 6 = 0 then some (.brx (bitsAt w 22 3) (bitsAt w 9 7)) else none
  | 0x3B => some (.reform (bitsAt w 22 3) (bitsAt w 0 22))
  | 0x3C => if natAt w 0 22 = 0 then some (.exit (bitsAt w 22 3)) else none
  | 0x3D => if natAt w 8 1 = 0 ∧ natAt w 16 6 = 0 then some (.trap (bitsAt w 22 3) (bitsAt w 9 7) (bitsAt w 0 8)) else none
  | 0x3E => if natAt w 0 22 = 0 then some (.bkpt (bitsAt w 22 3)) else if natAt w 0 22 = 4 then some (.bkptStop (bitsAt w 22 3)) else none
  | 0x40 => if natAt w 0 1 = 0 then some (.perm (bitsAt w 22 3) (bitsAt w 16 6) (bitsAt w 9 7) (bitsAt w 2 7) (bitsAt w 1 1)) else none
  | 0x41 => if natAt w 0 2 = 0 ∧ natAt w 5 11 = 8 then some (.ballotP (bitsAt w 22 3) (bitsAt w 16 6) (bitsAt w 2 3)) else if natAt w 0 2 = 0 ∧ natAt w 8 1 = 0 then some (.ballot (bitsAt w 22 3) (bitsAt w 16 6) (bitsAt w 9 7) (bitsAt w 2 6)) else none
  | 0x42 => if natAt w 0 2 = 0 then some (.vote (bitsAt w 22 3) (bitsAt w 19 3) (bitsAt w 16 3) (bitsAt w 9 7) (bitsAt w 2 7)) else none
  | 0x43 => some (.xld (bitsAt w 22 3) (bitsAt w 16 6) (bitsAt w 9 7) (bitsAt w 0 9))
  | 0x44 => some (.xst (bitsAt w 22 3) (bitsAt w 15 7) (bitsAt w 8 7) (bitsAt w 0 8))
  | 0x45 => if natAt w 0 2 = 0 ∧ natAt w 16 6 = 0 then some (.qinit (bitsAt w 22 3) (bitsAt w 9 7) (bitsAt w 2 7)) else none
  | 0x46 => if natAt w 0 2 = 0 ∧ natAt w 5 11 = 0 then some (.qstat (bitsAt w 22 3) (bitsAt w 16 6) (bitsAt w 2 3)) else none
  | 0x47 => if natAt w 0 2 = 0 ∧ natAt w 5 17 = 0 then some (.qclose (bitsAt w 22 3) (bitsAt w 2 3)) else none
  | 0x48 => if natAt w 0 2 = 0 ∧ natAt w 16 6 = 0 then some (.sdrop (bitsAt w 22 3) (bitsAt w 9 7) (bitsAt w 2 7)) else none
  | 0x50 => if natAt w 21 1 = 0 then some (.ld (bitsAt w 22 3) (bitsAt w 15 6) (bitsAt w 8 7) (bitsAt w 4 4) (bitsAt w 2 2) (bitsAt w 0 2)) else none
  | 0x51 => if natAt w 21 1 = 0 then some (.lds (bitsAt w 22 3) (bitsAt w 15 6) (bitsAt w 8 7) (bitsAt w 4 4) (bitsAt w 2 2) (bitsAt w 0 2)) else none
  | 0x52 => if natAt w 2 2 = 3 ∧ natAt w 21 1 = 0 then some (.ldq (bitsAt w 22 3) (bitsAt w 15 6) (bitsAt w 8 7) (bitsAt w 4 4) (bitsAt w 0 2)) else none
  | 0x53 => some (.st (bitsAt w 22 3) (bitsAt w 15 7) (bitsAt w 8 7) (bitsAt w 4 4) (bitsAt w 2 2) (bitsAt w 0 2))
  | 0x54 => if natAt w 2 2 = 3 then some (.stq (bitsAt w 22 3) (bitsAt w 15 7) (bitsAt w 8 7) (bitsAt w 4 4) (bitsAt w 0 2)) else none
  | 0x55 => some (.atomAdd (bitsAt w 22 3) (bitsAt w 16 6) (bitsAt w 9 7) (bitsAt w 2 7) (bitsAt w 0 2))
  | 0x56 => some (.atomMin (bitsAt w 22 3) (bitsAt w 16 6) (bitsAt w 9 7) (bitsAt w 2 7) (bitsAt w 0 2))
  | 0x57 => some (.atomMax (bitsAt w 22 3) (bitsAt w 16 6) (bitsAt w 9 7) (bitsAt w 2 7) (bitsAt w 0 2))
  | 0x58 => if natAt w 0 1 = 0 then some (.atomAnd (bitsAt w 22 3) (bitsAt w 16 6) (bitsAt w 9 7) (bitsAt w 2 7) (bitsAt w 1 1)) else none
  | 0x59 => if natAt w 0 1 = 0 then some (.atomOr (bitsAt w 22 3) (bitsAt w 16 6) (bitsAt w 9 7) (bitsAt w 2 7) (bitsAt w 1 1)) else none
  | 0x5A => if natAt w 0 1 = 0 then some (.atomXor (bitsAt w 22 3) (bitsAt w 16 6) (bitsAt w 9 7) (bitsAt w 2 7) (bitsAt w 1 1)) else none
  | 0x5B => if natAt w 0 1 = 0 then some (.atomXchg (bitsAt w 22 3) (bitsAt w 16 6) (bitsAt w 9 7) (bitsAt w 2 7) (bitsAt w 1 1)) else none
  | 0x5C => some (.atomCas (bitsAt w 22 3) (bitsAt w 15 7) (bitsAt w 8 7) (bitsAt w 1 7) (bitsAt w 0 1))
  | 0x5D => if natAt w 1 1 = 0 then some (.atomFadd (bitsAt w 22 3) (bitsAt w 16 6) (bitsAt w 9 7) (bitsAt w 2 7) (bitsAt w 0 1)) else none
  | 0x5E => if natAt w 0 2 = 0 ∧ natAt w 9 13 = 0 then some (.fence (bitsAt w 22 3) (bitsAt w 2 7)) else none
  | 0x5F => if natAt w 0 2 = 0 ∧ natAt w 9 13 = 0 then some (.drain (bitsAt w 22 3) (bitsAt w 2 7)) else none
  | 0x60 => if natAt w 0 2 = 0 ∧ natAt w 16 6 = 0 then some (.watch (bitsAt w 22 3) (bitsAt w 9 7) (bitsAt w 2 7)) else none
  | 0x61 => if natAt w 0 9 = 0 then some (.waitw (bitsAt w 22 3) (bitsAt w 16 6) (bitsAt w 9 7)) else none
  | 0x62 => if natAt w 0 2 = 0 ∧ natAt w 15 7 = 0 then some (.prf (bitsAt w 22 3) (bitsAt w 8 7) (bitsAt w 4 4) (bitsAt w 2 2)) else none
  | 0x63 => if natAt w 0 9 = 0 then some (.rvinit (bitsAt w 22 3) (bitsAt w 16 6) (bitsAt w 9 7)) else none
  | 0x64 => if natAt w 0 16 = 0 then some (.arrive (bitsAt w 22 3) (bitsAt w 16 6)) else none
  | 0x65 => if natAt w 0 16 = 0 then some (.waitrv (bitsAt w 22 3) (bitsAt w 16 6)) else none
  | 0x66 => if natAt w 0 9 = 0 then some (.cvinit (bitsAt w 22 3) (bitsAt w 16 6) (bitsAt w 9 7)) else none
  | 0x67 => if natAt w 0 16 = 0 then some (.msign (bitsAt w 22 3) (bitsAt w 16 6)) else none
  | 0x68 => if natAt w 0 2 = 0 then some (.post (bitsAt w 22 3) (bitsAt w 16 6) (bitsAt w 9 7) (bitsAt w 2 7)) else none
  | 0x69 => if natAt w 0 16 = 0 then some (.work (bitsAt w 22 3) (bitsAt w 16 6)) else if natAt w 0 16 = 4 then some (.workTry (bitsAt w 22 3) (bitsAt w 16 6)) else none
  | 0x6A => if natAt w 0 2 = 0 ∧ natAt w 9 13 = 2048 then some (.suspNow (bitsAt w 22 3) (bitsAt w 2 7)) else if natAt w 0 2 = 0 then some (.susp (bitsAt w 22 3) (bitsAt w 16 6) (bitsAt w 9 7) (bitsAt w 2 7)) else none
  | 0x6B => if natAt w 0 22 = 0 then some (.done (bitsAt w 22 3)) else none
  | 0x6C => if natAt w 0 2 = 0 then some (.tdld (bitsAt w 22 3) (bitsAt w 16 6) (bitsAt w 9 7) (bitsAt w 2 7)) else none
  | 0x6D => if natAt w 0 9 = 0 ∧ natAt w 16 6 = 0 then some (.tdinv (bitsAt w 22 3) (bitsAt w 9 7)) else none
  | 0x6E => if natAt w 0 9 = 0 then some (.marm (bitsAt w 22 3) (bitsAt w 16 6) (bitsAt w 9 7)) else none
  | 0x6F => if natAt w 0 2 = 0 ∧ natAt w 6 10 = 0 then some (.mzero (bitsAt w 22 3) (bitsAt w 16 6) (bitsAt w 2 4)) else if natAt w 0 2 = 0 ∧ natAt w 6 10 = 1 then some (.mzeroRel (bitsAt w 22 3) (bitsAt w 16 6) (bitsAt w 2 4)) else none
  | 0x70 => if natAt w 0 2 = 0 then some (.mld (bitsAt w 22 3) (bitsAt w 16 6) (bitsAt w 9 7) (bitsAt w 2 7)) else none
  | 0x71 => if natAt w 0 2 = 0 then some (.mst (bitsAt w 22 3) (bitsAt w 16 6) (bitsAt w 9 7) (bitsAt w 2 7)) else none
  | 0x72 => if natAt w 0 2 = 0 ∧ natAt w 6 3 = 0 ∧ natAt w 16 6 = 0 then some (.mcf (bitsAt w 22 3) (bitsAt w 9 7) (bitsAt w 2 4)) else if natAt w 0 2 = 0 ∧ natAt w 6 3 = 1 ∧ natAt w 16 6 = 0 then some (.mcf2 (bitsAt w 22 3) (bitsAt w 9 7) (bitsAt w 2 4)) else none
  | 0x73 => if natAt w 0 9 = 0 then some (.mpoly (bitsAt w 22 3) (bitsAt w 16 6) (bitsAt w 9 7)) else none
  | 0x74 => if natAt w 0 2 = 0 then some (.miter (bitsAt w 22 3) (bitsAt w 16 6) (bitsAt w 9 7) (bitsAt w 2 7)) else none
  | 0x75 => if natAt w 0 2 = 0 ∧ natAt w 16 6 = 0 then some (.tail (bitsAt w 22 3) (bitsAt w 9 7) (bitsAt w 2 7)) else none
  | 0x76 => if natAt w 0 2 = 0 ∧ natAt w 16 6 = 0 then some (.waittl (bitsAt w 22 3) (bitsAt w 9 7) (bitsAt w 2 7)) else none
  | 0x77 => if natAt w 0 2 = 0 ∧ natAt w 9 7 = 0 then some (.tlrd (bitsAt w 22 3) (bitsAt w 16 6) (bitsAt w 2 7)) else none
  | 0x78 => if natAt w 0 2 = 0 then some (.tex (bitsAt w 22 3) (bitsAt w 16 6) (bitsAt w 9 7) (bitsAt w 2 7)) else none
  | 0x79 => if natAt w 0 2 = 0 then some (.texf (bitsAt w 22 3) (bitsAt w 16 6) (bitsAt w 9 7) (bitsAt w 2 7)) else none
  | 0x7A => if natAt w 0 2 = 0 then some (.rq (bitsAt w 22 3) (bitsAt w 16 6) (bitsAt w 9 7) (bitsAt w 2 7)) else none
  | 0x7B => if natAt w 0 2 = 0 ∧ natAt w 16 6 = 0 then some (.pixw (bitsAt w 22 3) (bitsAt w 9 7) (bitsAt w 2 7)) else none
  | 0x7C => if natAt w 0 2 = 0 ∧ natAt w 9 7 = 0 then some (.sysr (bitsAt w 22 3) (bitsAt w 16 6) (bitsAt w 2 7)) else none
  | 0x7D => if natAt w 0 2 = 0 ∧ natAt w 16 6 = 0 then some (.sysw (bitsAt w 22 3) (bitsAt w 9 7) (bitsAt w 2 7)) else none
  | 0x7E => if natAt w 0 2 = 0 ∧ natAt w 16 6 = 0 then some (.tlbi (bitsAt w 22 3) (bitsAt w 9 7) (bitsAt w 2 7)) else none
  | 0x7F => if natAt w 0 17 = 0 ∧ natAt w 22 3 = 2 then some (.hsch (bitsAt w 21 1) (bitsAt w 17 4)) else if natAt w 0 6 = 0 ∧ natAt w 22 3 = 1 then some (.hmod (bitsAt w 20 2) (bitsAt w 19 1) (bitsAt w 18 1) (bitsAt w 15 3) (bitsAt w 12 3) (bitsAt w 9 3) (bitsAt w 7 2) (bitsAt w 6 1)) else if natAt w 16 9 = 192 then some (.hdropLo (bitsAt w 0 16)) else if natAt w 16 9 = 256 then some (.hdropHi (bitsAt w 0 16)) else if natAt w 0 2 = 0 ∧ natAt w 22 3 = 5 then some (.hdropX (bitsAt w 12 10) (bitsAt w 2 10)) else if natAt w 22 3 = 0 then some (.himm (bitsAt w 0 22)) else none
  | _ => none

/-- The control cores' extension words (R351): opcode custom-0, funct7 zero; rs2 zero for `cx.rfetch` and `cx.disp`. -/
def decodeControl (w : IWord) : Option Instr :=
  if natAt w 0 7 = 0x0B ∧ natAt w 25 7 = 0 then
    match natAt w 12 3 with
    | 0 => if natAt w 20 5 = 0 then some (.cxRfetch (bitsAt w 15 5) (bitsAt w 7 5)) else none
    | 1 => some (.cxBfx (bitsAt w 20 5) (bitsAt w 15 5) (bitsAt w 7 5))
    | 2 => some (.cxSwait (bitsAt w 20 5) (bitsAt w 15 5) (bitsAt w 7 5))
    | 3 => if natAt w 20 5 = 0 then some (.cxDisp (bitsAt w 15 5) (bitsAt w 7 5)) else none
    | _ => none
  else none

/-- Why bytes are no instruction. -/
inductive DecodeError where
  /-- fewer than four bytes -/
  | tooShort
  /-- a word that matches no row of the opcode table (R41, R42) -/
  | noInstruction (w : IWord)
deriving DecidableEq, Repr

/-- Four bytes in memory order as a word: little-endian (R34). -/
def wordOfBytes (b0 b1 b2 b3 : Byte) : IWord :=
  BitVec.ofNat 32 (b0.toNat + 2 ^ 8 * b1.toNat + 2 ^ 16 * b2.toNat + 2 ^ 24 * b3.toNat)

/-- The bytes of a word in memory order (R34). -/
def bytesOfWord (w : IWord) : List Byte :=
  [bitsAt w 0 8, bitsAt w 8 8, bitsAt w 16 8, bitsAt w 24 8]

/-- Decoding a thread's instruction from bytes: the instruction and the rest (R34, R41). -/
def decode : List Byte → Except DecodeError (Instr × List Byte)
  | b0 :: b1 :: b2 :: b3 :: rest =>
    match decodeWord (wordOfBytes b0 b1 b2 b3) with
    | some i => .ok (i, rest)
    | none => .error (.noInstruction (wordOfBytes b0 b1 b2 b3))
  | _ => .error .tooShort

/-- Decoding a control core's extension instruction from bytes (R351). -/
def decodeCx : List Byte → Except DecodeError (Instr × List Byte)
  | b0 :: b1 :: b2 :: b3 :: rest =>
    match decodeControl (wordOfBytes b0 b1 b2 b3) with
    | some i => .ok (i, rest)
    | none => .error (.noInstruction (wordOfBytes b0 b1 b2 b3))
  | _ => .error .tooShort

/-- The instruction of a row of the opcode table whose bits are `w`: the thread decoder's, or the control cores'.
A row's bits number from bit 0 of the word, which is stored little-endian (R2, R34). -/
def decodeTableWord (nbits w : Nat) : Option Instr :=
  let bytes := bytesOfWord (BitVec.ofNat 32 (w % 2 ^ nbits))
  match decode bytes with
  | .ok (i, _) => some i
  | .error _ =>
    match decodeCx bytes with
    | .ok (i, _) => some i
    | .error _ => none

/-- A word from its primary opcode (R35) and the value of its lower fields. -/
def packWord (op low : Nat) : IWord := BitVec.ofNat 32 (op * 2 ^ 25 + low)


/-- Format R, and U with its sub field in the place of src b (R35). -/
def encR (op g d a b t : Nat) : IWord := packWord op (g * 2 ^ 22 + d * 2 ^ 16 + a * 2 ^ 9 + b * 2 ^ 2 + t)

/-- Format C (R35). -/
def encC (op g k p a b t : Nat) : IWord := packWord op (g * 2 ^ 22 + k * 2 ^ 19 + p * 2 ^ 16 + a * 2 ^ 9 + b * 2 ^ 2 + t)

/-- Formats I and S (R35): a 9-bit field at the bottom. -/
def encI (op g d a i : Nat) : IWord := packWord op (g * 2 ^ 22 + d * 2 ^ 16 + a * 2 ^ 9 + i)

/-- Format R3 (R35). -/
def encR3 (op g a b c t : Nat) : IWord := packWord op (g * 2 ^ 22 + a * 2 ^ 15 + b * 2 ^ 8 + c * 2 + t)

/-- Format P (R35). -/
def encP (op g d a b l : Nat) : IWord := packWord op (g * 2 ^ 22 + d * 2 ^ 19 + a * 2 ^ 16 + b * 2 ^ 13 + l * 2 ^ 9)

/-- Format M (R35). -/
def encM (op g x a o z r : Nat) : IWord := packWord op (g * 2 ^ 22 + x * 2 ^ 15 + a * 2 ^ 8 + o * 2 ^ 4 + z * 2 ^ 2 + r)

/-- Format XS (R35). -/
def encXS (op g a b o : Nat) : IWord := packWord op (g * 2 ^ 22 + a * 2 ^ 15 + b * 2 ^ 8 + o)

/-- Format B (R35). -/
def encB (op g o : Nat) : IWord := packWord op (g * 2 ^ 22 + o)

/-- Format H (R35): a hint word of a kind, with its payload. -/
def encH (kind payload : Nat) : IWord := packWord 0x7F (kind * 2 ^ 22 + payload)

/-- The R-type word of the control extension (R351). -/
def encCx (f3 r2 r1 rd : Nat) : IWord := BitVec.ofNat 32 (r2 * 2 ^ 20 + r1 * 2 ^ 15 + f3 * 2 ^ 12 + rd * 2 ^ 7 + 0x0B)

/-- The word of an instruction, from its encoding table; none for a step without an encoding. -/
def encode : Instr → Option IWord
  | .nop => some 0
  | .iadd g d a b t => some (encR 0x01 g.toNat d.toNat a.toNat b.toNat t.toNat)
  | .isub g d a b t => some (encR 0x02 g.toNat d.toNat a.toNat b.toNat t.toNat)
  | .imul g d a b t => some (encR 0x03 g.toNat d.toNat a.toNat b.toNat t.toNat)
  | .imulh g d a b t => some (encR 0x04 g.toNat d.toNat a.toNat b.toNat t.toNat)
  | .imad g a b c t => some (encR3 0x05 g.toNat a.toNat b.toNat c.toNat t.toNat)
  | .imin g d a b t => some (encR 0x06 g.toNat d.toNat a.toNat b.toNat t.toNat)
  | .imax g d a b t => some (encR 0x07 g.toNat d.toNat a.toNat b.toNat t.toNat)
  | .iabs g d a t => some (encR 0x08 g.toNat d.toNat a.toNat 0 t.toNat)
  | .and g d a b t => some (encR 0x09 g.toNat d.toNat a.toNat b.toNat (t.toNat * 2))
  | .or g d a b t => some (encR 0x0A g.toNat d.toNat a.toNat b.toNat (t.toNat * 2))
  | .xor g d a b t => some (encR 0x0B g.toNat d.toNat a.toNat b.toNat (t.toNat * 2))
  | .andn g d a b t => some (encR 0x0C g.toNat d.toNat a.toNat b.toNat (t.toNat * 2))
  | .shl g d a b t => some (encR 0x0D g.toNat d.toNat a.toNat b.toNat (t.toNat * 2))
  | .shr g d a b t => some (encR 0x0E g.toNat d.toNat a.toNat b.toNat (t.toNat * 2))
  | .sar g d a b t => some (encR 0x0F g.toNat d.toNat a.toNat b.toNat (t.toNat * 2))
  | .rot g d a b t => some (encR 0x10 g.toNat d.toNat a.toNat b.toNat (t.toNat * 2))
  | .popc g d a t => some (encR 0x11 g.toNat d.toNat a.toNat 0 (t.toNat * 2))
  | .clz g d a t => some (encR 0x12 g.toNat d.toNat a.toNat 0 (t.toNat * 2))
  | .ctz g d a t => some (encR 0x13 g.toNat d.toNat a.toNat 0 (t.toNat * 2))
  | .brev g d a t => some (encR 0x14 g.toNat d.toNat a.toNat 0 (t.toNat * 2))
  | .bfe g d a b t => some (encR 0x15 g.toNat d.toNat a.toNat b.toNat t.toNat)
  | .bfi g a b c t => some (encR3 0x16 g.toNat a.toNat b.toNat c.toNat t.toNat)
  | .icmp g k p a b t => some (encC 0x17 g.toNat k.toNat p.toNat a.toNat b.toNat t.toNat)
  | .lea g d a b t => some (encR 0x18 g.toNat d.toNat a.toNat b.toNat t.toNat)
  | .mov g d a t => some (encR 0x19 g.toNat d.toNat a.toNat 0 (t.toNat * 2))
  | .movi g d ix => some (encI 0x1A g.toNat d.toNat 0 ix.toNat)
  | .iaddi g d a ix => some (encI 0x1B g.toNat d.toNat a.toNat ix.toNat)
  | .wid g d subw => some (encR 0x1C g.toNat d.toNat 0 subw.toNat 0)
  | .cvta g d a subw => some (encR 0x1D g.toNat d.toNat a.toNat subw.toNat 0)
  | .isap g k p a => some (encC 0x1E g.toNat k.toNat p.toNat a.toNat 0 0)
  | .plop g d a b l => some (encP 0x1F g.toNat d.toNat a.toNat b.toNat l.toNat)
  | .fadd g d a b t => some (encR 0x20 g.toNat d.toNat a.toNat b.toNat t.toNat)
  | .fsub g d a b t => some (encR 0x21 g.toNat d.toNat a.toNat b.toNat t.toNat)
  | .fmul g d a b t => some (encR 0x22 g.toNat d.toNat a.toNat b.toNat t.toNat)
  | .ffma g a b c t => some (encR3 0x23 g.toNat a.toNat b.toNat c.toNat t.toNat)
  | .hfma2 g a b c t => some (encR3 0x24 g.toNat a.toNat b.toNat c.toNat t.toNat)
  | .fmin g d a b t => some (encR 0x25 g.toNat d.toNat a.toNat b.toNat t.toNat)
  | .fmax g d a b t => some (encR 0x26 g.toNat d.toNat a.toNat b.toNat t.toNat)
  | .fcmp g k p a b t => some (encC 0x27 g.toNat k.toNat p.toNat a.toNat b.toNat t.toNat)
  | .frcp g d a t => some (encR 0x28 g.toNat d.toNat a.toNat 0 t.toNat)
  | .frsq g d a t => some (encR 0x29 g.toNat d.toNat a.toNat 0 t.toNat)
  | .fsqrt g d a t => some (encR 0x2A g.toNat d.toNat a.toNat 0 t.toNat)
  | .fex2 g d a t => some (encR 0x2B g.toNat d.toNat a.toNat 0 t.toNat)
  | .flg2 g d a t => some (encR 0x2C g.toNat d.toNat a.toNat 0 t.toNat)
  | .fsin g d a t => some (encR 0x2D g.toNat d.toNat a.toNat 0 t.toNat)
  | .fcos g d a t => some (encR 0x2E g.toNat d.toNat a.toNat 0 t.toNat)
  | .ftanh g d a t => some (encR 0x2F g.toNat d.toNat a.toNat 0 t.toNat)
  | .frnd g d a t => some (encR 0x30 g.toNat d.toNat a.toNat 0 t.toNat)
  | .cvt g d a x y => some (encR 0x31 g.toNat d.toNat a.toNat (x.toNat * 16 + y.toNat * 2) 0)
  | .cvtDxb g d a f subw => some (encR 0x31 g.toNat d.toNat a.toNat (f.toNat * 16 + subw.toNat * 2 + 0x9) 0)
  | .qpk g d a b t => some (encR 0x32 g.toNat d.toNat a.toNat b.toNat t.toNat)
  | .qupk g d a b t => some (encR 0x33 g.toNat d.toNat a.toNat b.toNat t.toNat)
  | .mort g d a b => some (encR 0x34 g.toNat d.toNat a.toNat b.toNat 0)
  | .bbu g d a b => some (encR 0x35 g.toNat d.toNat a.toNat b.toNat 0)
  | .bra g o => some (encB 0x38 g.toNat o.toNat)
  | .call g o => some (encB 0x39 g.toNat o.toNat)
  | .brx g a => some (encR 0x3A g.toNat 0 a.toNat 0 0)
  | .reform g o => some (encB 0x3B g.toNat o.toNat)
  | .exit g => some (encR 0x3C g.toNat 0 0 0 0)
  | .trap g a n => some (encI 0x3D g.toNat 0 a.toNat n.toNat)
  | .bkpt g => some (encR 0x3E g.toNat 0 0 0 0)
  | .bkptStop g => some (encR 0x3E g.toNat 0 0 0x1 0)
  | .perm g d a b t => some (encR 0x40 g.toNat d.toNat a.toNat b.toNat (t.toNat * 2))
  | .ballot g d a j => some (encR 0x41 g.toNat d.toNat a.toNat j.toNat 0)
  | .ballotP g d k => some (encR 0x41 g.toNat d.toNat 0 (k.toNat + 0x40) 0)
  | .vote g k p a b => some (encC 0x42 g.toNat k.toNat p.toNat a.toNat b.toNat 0)
  | .xld g d a ix => some (encI 0x43 g.toNat d.toNat a.toNat ix.toNat)
  | .xst g a b o => some (encXS 0x44 g.toNat a.toNat b.toNat o.toNat)
  | .qinit g a b => some (encR 0x45 g.toNat 0 a.toNat b.toNat 0)
  | .qstat g d n => some (encR 0x46 g.toNat d.toNat 0 n.toNat 0)
  | .qclose g n => some (encR 0x47 g.toNat 0 0 n.toNat 0)
  | .sdrop g a b => some (encR 0x48 g.toNat 0 a.toNat b.toNat 0)
  | .ld g d a o subw r => some (encM 0x50 g.toNat d.toNat a.toNat o.toNat subw.toNat r.toNat)
  | .lds g d a o subw r => some (encM 0x51 g.toNat d.toNat a.toNat o.toNat subw.toNat r.toNat)
  | .ldq g d a o r => some (encM 0x52 g.toNat d.toNat a.toNat o.toNat 0x3 r.toNat)
  | .st g x a o subw r => some (encM 0x53 g.toNat x.toNat a.toNat o.toNat subw.toNat r.toNat)
  | .stq g x a o r => some (encM 0x54 g.toNat x.toNat a.toNat o.toNat 0x3 r.toNat)
  | .atomAdd g d a b t => some (encR 0x55 g.toNat d.toNat a.toNat b.toNat t.toNat)
  | .atomMin g d a b t => some (encR 0x56 g.toNat d.toNat a.toNat b.toNat t.toNat)
  | .atomMax g d a b t => some (encR 0x57 g.toNat d.toNat a.toNat b.toNat t.toNat)
  | .atomAnd g d a b t => some (encR 0x58 g.toNat d.toNat a.toNat b.toNat (t.toNat * 2))
  | .atomOr g d a b t => some (encR 0x59 g.toNat d.toNat a.toNat b.toNat (t.toNat * 2))
  | .atomXor g d a b t => some (encR 0x5A g.toNat d.toNat a.toNat b.toNat (t.toNat * 2))
  | .atomXchg g d a b t => some (encR 0x5B g.toNat d.toNat a.toNat b.toNat (t.toNat * 2))
  | .atomCas g a b c t => some (encR3 0x5C g.toNat a.toNat b.toNat c.toNat t.toNat)
  | .atomFadd g d a b t => some (encR 0x5D g.toNat d.toNat a.toNat b.toNat t.toNat)
  | .fence g subw => some (encR 0x5E g.toNat 0 0 subw.toNat 0)
  | .drain g subw => some (encR 0x5F g.toNat 0 0 subw.toNat 0)
  | .watch g a b => some (encR 0x60 g.toNat 0 a.toNat b.toNat 0)
  | .waitw g d a => some (encR 0x61 g.toNat d.toNat a.toNat 0 0)
  | .prf g a o subw => some (encM 0x62 g.toNat 0 a.toNat o.toNat subw.toNat 0)
  | .rvinit g ix a => some (encI 0x63 g.toNat ix.toNat a.toNat 0)
  | .arrive g ix => some (encI 0x64 g.toNat ix.toNat 0 0)
  | .waitrv g ix => some (encI 0x65 g.toNat ix.toNat 0 0)
  | .cvinit g ix a => some (encI 0x66 g.toNat ix.toNat a.toNat 0)
  | .msign g ix => some (encI 0x67 g.toNat ix.toNat 0 0)
  | .post g d a b => some (encR 0x68 g.toNat d.toNat a.toNat b.toNat 0)
  | .work g d => some (encR 0x69 g.toNat d.toNat 0 0 0)
  | .workTry g d => some (encR 0x69 g.toNat d.toNat 0 0x1 0)
  | .susp g k a b => some (encR 0x6A g.toNat k.toNat a.toNat b.toNat 0)
  | .suspNow g b => some (encR 0x6A g.toNat 0x10 0 b.toNat 0)
  | .done g => some (encR 0x6B g.toNat 0 0 0 0)
  | .tdld g d a b => some (encR 0x6C g.toNat d.toNat a.toNat b.toNat 0)
  | .tdinv g a => some (encR 0x6D g.toNat 0 a.toNat 0 0)
  | .marm g ix a => some (encI 0x6E g.toNat ix.toNat a.toNat 0)
  | .mzero g d n => some (encR 0x6F g.toNat d.toNat 0 n.toNat 0)
  | .mzeroRel g d n => some (encR 0x6F g.toNat d.toNat 0 (n.toNat + 0x10) 0)
  | .mld g d a b => some (encR 0x70 g.toNat d.toNat a.toNat b.toNat 0)
  | .mst g d a b => some (encR 0x71 g.toNat d.toNat a.toNat b.toNat 0)
  | .mcf g a n => some (encR 0x72 g.toNat 0 a.toNat n.toNat 0)
  | .mcf2 g a n => some (encR 0x72 g.toNat 0 a.toNat (n.toNat + 0x10) 0)
  | .mpoly g d a => some (encR 0x73 g.toNat d.toNat a.toNat 0 0)
  | .miter g d a b => some (encR 0x74 g.toNat d.toNat a.toNat b.toNat 0)
  | .tail g a b => some (encR 0x75 g.toNat 0 a.toNat b.toNat 0)
  | .waittl g a ix => some (encR 0x76 g.toNat 0 a.toNat ix.toNat 0)
  | .tlrd g d subw => some (encR 0x77 g.toNat d.toNat 0 subw.toNat 0)
  | .tex g d a b => some (encR 0x78 g.toNat d.toNat a.toNat b.toNat 0)
  | .texf g d a b => some (encR 0x79 g.toNat d.toNat a.toNat b.toNat 0)
  | .rq g d a b => some (encR 0x7A g.toNat d.toNat a.toNat b.toNat 0)
  | .pixw g a b => some (encR 0x7B g.toNat 0 a.toNat b.toNat 0)
  | .sysr g d n => some (encR 0x7C g.toNat d.toNat 0 n.toNat 0)
  | .sysw g a n => some (encR 0x7D g.toNat 0 a.toNat n.toNat 0)
  | .tlbi g a b => some (encR 0x7E g.toNat 0 a.toNat b.toNat 0)
  | .himm p => some (encH 0 p.toNat)
  | .hmod r subw f n a c h t => some (encH 0x1 (r.toNat * 1048576 + subw.toNat * 524288 + f.toNat * 262144 + n.toNat * 32768 + a.toNat * 4096 + c.toNat * 512 + h.toNat * 128 + t.toNat * 64))
  | .hsch y d => some (encH 0x2 (y.toNat * 2097152 + d.toNat * 131072))
  | .hdropLo m => some (encH 0x3 m.toNat)
  | .hdropHi m => some (encH 0x4 m.toNat)
  | .hdropX f c => some (encH 0x5 (f.toNat * 4096 + c.toNat * 4))
  | .cxRfetch subw d => some (encCx 0 0 subw.toNat d.toNat)
  | .cxBfx t subw d => some (encCx 0x1 t.toNat subw.toNat d.toNat)
  | .cxSwait t subw d => some (encCx 0x2 t.toNat subw.toNat d.toNat)
  | .cxDisp subw d => some (encCx 0x3 0 subw.toNat d.toNat)
  | .pendingValueFill _ => none
  | .writeComplete _ => none
  | .binDraw _ => none
  | .waitwTimeout _ => none
  | .watchdog _ => none
  | .regBlockRetention _ _ _ _ => none
  | .scratchBankRetention _ _ => none
  | .readyQueueScan => none
  | .teamRetire _ => none
  | .cardRetirement _ => none
  | .cardDeadline _ => none
  | .patrolScrub _ _ _ => none
  | .remotePost _ => none
  | .continuationDelivery _ _ => none
  | .continuationResume _ => none
  | .descriptorLoadComplete _ => none
  | .issueLatchEnter _ => none
  | .bruinPass _ => none
  | .chainEnable _ _ _ => none
  | .chainDisable _ _ _ => none
  | .chainConfigWrite _ _ _ => none
  | .chtailWrite _ _ _ => none
  | .chainEntryAccept _ _ => none
  | .chainNop _ _ => none
  | .copy _ _ => none
  | .raw _ _ => none
  | .fill _ _ => none
  | .gather _ _ => none
  | .redadd _ _ => none
  | .chainWait _ _ => none
  | .copyBurst _ => none
  | .chainEntryComplete _ _ => none
  | .binnerJob _ _ => none
  | .rasterStrip _ => none
  | .quadRecordPush _ => none
  | .rayFinish _ => none
  | .encoderTileRow _ => none
  | .bsrdWrite _ _ => none
  | .displayLine _ => none
  | .dpLinkLoss _ => none
  | .hotPlug _ _ => none
  | .streamAdmit _ => none
  | .streamStop _ => none
  | .streamFrameLimit _ => none
  | .actStart _ => none
  | .actRetire _ => none
  | .outputCardLaunch _ => none
  | .actAbandon _ => none
  | .sync _ _ => none
  | .followUp _ _ _ => none
  | .delayReq => none
  | .delayResp _ _ _ => none
  | .announce _ _ => none
  | .holdover => none
  | .timensRead => none
  | .bankFlipLand _ => none
  | .bankFlipIssuable _ => none
  | .timeSliceExpiry _ => none
  | .contextSwapOut _ => none
  | .contextRestore _ _ => none
  | .trapRecordPost _ => none
  | .tqheadWrite _ _ => none
  | .replay _ => none
  | .resume _ _ _ => none
  | .killteam _ _ _ => none
  | .killcard _ _ => none
  | .unfreeze _ => none
  | .ownershipWrite _ _ _ => none
  | .registerWrite _ _ _ => none
  | .kickWrite _ _ => none
  | .hostQueueEnable _ _ => none
  | .hostQueueDisable _ _ => none
  | .packetFetch _ => none
  | .packetNop _ => none
  | .launch _ => none
  | .graph _ => none
  | .wait _ => none
  | .signal _ => none
  | .flush _ => none
  | .fetchfence _ => none
  | .traceSyncRecord _ => none
  | .trdWrite _ _ => none
  | .preciseStopRequest _ => none
  | .preciseStop _ => none
  | .preciseStopRelease _ => none
  | .counterSample => none
  | .srdWrite _ => none
  | .captureStart _ => none
  | .captureStop _ => none
  | .energyLowRead _ => none
  | .powerGrant _ => none
  | .budgetSend _ _ => none
  | .budgetMessage _ _ _ _ => none
  | .filler _ _ => none
  | .powerKill => none
  | .linkModuleFail _ => none
  | .hostTimeout _ => none
  | .boot => none
  | .attestationRequest _ _ => none
  | .firmwareSwitch _ => none
  | .clusterReplace _ => none
  | .lp6Retrain _ => none
  | .streamReconfigure _ => none
  | .ingressRequest _ => none
  | .remoteResponse _ _ => none
  | .remoteTimeout _ => none
  | .portLossOfLock _ => none
  | .portRetrained _ => none
  | .illegalOpcode _ => none
  | .hschDelayEnd _ => none
  | .partFailure _ => none
  | .hostMemoryAccess _ _ _ => none
  | .ucieModuleRetrained _ => none
  | .dpLinkTrained _ => none

end Sys2Proof
end

