-- ==== Sys2Proof/Config.lean ====
section
/-! DEFINITION. What an implementation fixes, and the free values (DESIGN CHOICE: log 5): constants without a body, of
which no proof can see more than their type. A free value is applied to the counter `freeCtr` of the state, so that
each use is a fresh one. -/

namespace Sys2Proof

/-- A part of a coded AV1 temporal unit (R320), with what the stream sets of it: a sequence header has the frame's size and
whether its samples have 10 bits; a frame header has KEY, base_q_idx and the logarithm of the tile columns; a tile
group is one tile row. -/
inductive CodedPart where
  | delimiter
  | sequenceHeader (width height : Nat) (ten : Bool)
  | frameHeader (key : Bool) (baseq tcols : Nat)
  | tileGroup (row : Nat)
deriving DecidableEq, Repr

end Sys2Proof

namespace Sys2Proof.Config

/-- A byte of a part of an AV1 temporal unit (R320). First argument: the use; last: the byte. Free value. -/
opaque av1Byte : Nat → CodedPart → Nat → Byte

/-- Length in bytes, less one, of a part of an AV1 temporal unit (R320). First argument: the use. Free value. -/
opaque av1Length : Nat → CodedPart → BitVec 32

/-- Signature bytes of an attestation report (R376: ML-DSA-65 over the report). Free value. -/
opaque signatureByte : Nat → Nat → Byte

/-- The 32 bytes each of device id, ROM, firmware and configuration measurements (R376), by use and byte. Free value. -/
opaque measurementByte : Nat → Nat → Byte

/-- The rollback index of the running firmware image (R376). Free value. -/
opaque rollbackIndex : Nat → Word

/-- Whether the checks of firmware image A (0) or B (1) pass: the signature (0) and the rollback index (1) (R375).
Free value. -/
opaque imageCheck : Nat → Nat → Bool

/-- A current, in amperes, as the power hardware measures it (R373, R374). Free value. -/
opaque dieCurrent : Nat → Nat

/-- Whether a spare cluster is healthy and the live state fits (R377). Free value. -/
opaque spareFits : Nat → Bool

/-- The words of the certificate of the device's public key, by offset of the aperture; none where it does not lie (R376:
neither its bytes nor its place is given). Free value. -/
opaque certificate : Nat → Option Word

/-- Bank, core and cluster of SELF as a context's block of the aperture shows it (R265 names those of the issuing core).
Free value. -/
opaque selfPlace : Nat → BitVec 9

/-- A word of a register bank outside every slot (R359), by clock and place. Free value. -/
opaque bankWord : Nat → Nat → Word

/-- A counter of busy clocks of a unit over one sample period (R360), by use and word. Free value. -/
opaque busyCount : Nat → Nat → BitVec 32

/-- Energy in nanojoules that the hardware has measured up to a clock (R362), by clock and accumulator. Free value. -/
opaque energyAt : Nat → Nat → Nat

/-- What a debug read of a register shows whose value is pending (R359), by its token. Free value. -/
opaque pendingWord : Nat → Word

/-- What a dead register of a suspended thread saves (R203, R204: listed in DEADV; no value is given). Free value. -/
opaque deadWord : Nat → Nat → Word

/-- What `cx.disp` returns for a card that fails acceptance, which takes no journal number (R351, R353). Free value. -/
opaque noJournal : Nat → Word

/-- mtval of an illegal-instruction exception of a control core (R351 gives none for cause 2). Free value. -/
opaque illegalMtval : BitVec 32 → Word

/-- A device's share of the pod limit while no device has any demand (R371 divides by their sum). Free value. -/
opaque idleShare : Nat → Nat

/-- A byte of the two reconstructed frames that an encoder keeps at REFBASE (R320). First argument: the use; second: the
byte. Free value. -/
opaque referenceByte : Nat → Nat → Byte

/-- What a display sink accepts as it is attached: RATE20 in bit 0, LANESUP in bits 2 and 1 (R368). Free value. -/
opaque sinkAccepts : Nat → BitVec 3

/-- Size of a slew of device time, in units of 2^-40, before its limit of 200 ppm (R325). Free value. -/
opaque slewRate : Nat → Nat

/-- Side of a slew in LOCKED: above zero slows device time, below zero speeds it up (R325). Free value. -/
opaque slewSide : Nat → Int

/-- Clock steps of 100 MHz above 1.2 GHz that a grant in watts covers, modulo 9 (R370). Free value. -/
opaque clockSteps : Nat → Nat

/-- Measured draw of the LP6 and the SerDes in watts (R370), by clock. Free value. -/
opaque ioDraw : Nat → Nat

/-- BIAS of a cluster under a grant in watts, modulo 3 (R369, R370). Free value. -/
opaque biasFor : Nat → Nat

/-- Whether the power throttle of a cluster withholds the free issue clocks of a clock (R370). First argument: the cluster;
second: the clock. Free value. -/
opaque throttled : Nat → Nat → Bool

/-- A byte of saved state that did not fit shadow storage, in the CSAVE area (R277: its layout is not given). First
argument: the use; second: the byte. Free value. -/
opaque spillByte : Nat → Nat → Byte

/-- A byte of a memory word whose error cannot be corrected (R185, R367). First argument: the use; second: the byte. Free
value. -/
opaque flawByte : Nat → Nat → Byte

/-- The kind of a page of another device, which only its owner knows (R257, R381): its number modulo 4 as KIND. Argument:
the page of the address. Free value. -/
opaque remotePage : Nat → Nat

/-- The draw and the demand of the device in watts (R371), by clock. Free value. -/
opaque drawWatts : Nat → BitVec 16 × BitVec 16

/-- An octet of the port identity and sequence number of a Delay_Req (R324). First argument: the use; last: the octet. Free
value. -/
opaque messageByte : Nat → Nat → Byte

end Sys2Proof.Config
end

