-- ==== Sys2Proof/Machine/State.lean ====
section
/-! DEFINITION. The state of the device: everything the spec gives the machine, as plain data, and the state after
reset. INVENTORY.md lists each field with the rule that names it. -/

namespace Sys2Proof.Machine

/-- Why the machine stops for good. Every fault of the spec is a next state: a record is raised and the machine runs on. -/
inductive Fault where
  /-- Raised by every step after both firmware images have failed their checks (R375: the device halts). Safe. -/
  | deviceHalted
deriving DecidableEq, Repr

/-- Why a step has no meaning here. -/
inductive Refusal where
  /-- Raised by an arm of `exec` that has no meaning yet. Safe. -/
  | notModelled (mnemonic : String)
  /-- Raised when a control core fetches a RISC-V word outside custom-0: the base instruction set is not this spec's
  (R351). Safe. -/
  | firmwareWord
deriving DecidableEq, Repr

/-- A table of entries under a number: strictly rising keys; a number without an entry has the default of its use. -/
abbrev Tbl (α : Type) := List (Nat × α)

/-- A register or queue entry (R10, R15): a value, or a value still to come under a token. -/
inductive Val where
  | known (w : Word)
  | pend (tok : Nat)
deriving DecidableEq, Repr

/-- One word of an x-file (R24, R25). -/
structure XWord where
  val : Val
  dead : Bool
deriving DecidableEq, Repr

/-- What a blocked thread waits for (R141, R156, R179, R135, R138, R201, R204, R219, R223, R318). -/
inductive Wait where
  | queue (mask : BitVec 8)
  | rendezvous (ix : Nat)
  /-- `dropped`: the word's hint run dropped `dst`, so that it ends dead (R27, R49) -/
  | watch (dst : BitVec 6) (limit : Option Nat) (dropped : Bool)
  | timeline (ix : Nat) (n : Word)
  | work
  | pool
  | bruinPlace
  | issueLatch (ix : Nat)
  | rayPlace
deriving DecidableEq, Repr

/-- Why a thread is halted (R112). -/
inductive Halt where
  | page
  | softTrap
  | breakpoint
deriving DecidableEq, Repr

/-- The condition of a thread (R141). -/
inductive Cond where
  | inGroup (g : Nat)
  | filed
  | blocked (w : Wait)
  | halted (h : Halt)
  | frozen
  | ended
deriving DecidableEq, Repr

/-- The single watch of a slot (R134): the ranges of lines it covers, by location, and the hit flag. -/
structure Watch where
  ranges : List (Nat × Nat)
  hit : Bool
deriving DecidableEq, Repr

/-- A thread (R10, R11). Its key in the table is its slot's number in the order of R265 (LOCPOOL). -/
structure Thread where
  team : Nat
  /-- byte offset of its slot within the lane's bank (R11) -/
  off : Nat
  pc : Word
  wid : Word
  v : Vector Val 32
  vdead : BitVec 32
  q : Vector Val 16
  b0 : Option Val
  b1 : Option Val
  preds : BitVec 8
  x : List XWord
  cond : Cond
  pb : BitVec 24
  ah : BitVec 24
  watch : Option Watch
  /-- PC of the instruction that owes each pending token (R358, issue PC) -/
  owed : List (Nat × Word)
  /-- its `tlbi` has dropped the entries that it names and waits at issue (R264) -/
  dropped : Bool
deriving DecidableEq, Repr

/-- What a fault does to its thread (R112). -/
inductive FaultClass where
  | freeze
  | halt (h : Halt)
  /-- a record only: the thread runs on (R126) -/
  | note
  /-- an uncorrectable error kills the thread's team (R367) -/
  | kill
deriving DecidableEq, Repr

/-- A fault as an instruction raises it (R112). -/
structure FaultInfo where
  code : BitVec 5
  cls : FaultClass
  addr : Word
  extra : Nat
  replay : Bool
deriving DecidableEq, Repr

/-- A word that part of its group's lanes have executed (log 62): a later lane waits for a value or a write of an earlier
one. `done`: the lanes that have had their turn; the rest as the word leaves them. (DESIGN CHOICE: log 12) -/
structure PartIssue where
  stay : List (Nat × Word)
  faults : List (Nat × FaultInfo × Word)
  blocked : List Nat
  left : Bool
  done : List Nat
  /-- clock at which the word began to issue -/
  clk : Nat
deriving DecidableEq, Repr

/-- An issue group (R141, R148, R149), with the hint run it has gathered (R45) and its latch window (R19). -/
structure Group where
  core : Nat
  bank : Nat
  pc : Word
  threads : List Nat
  run : List IWord
  runPc : Word
  window : Option Nat
  delayUntil : Nat
  yielded : Bool
  mark : Nat
  wasReady : Bool
  /-- first clock in which the group may issue (R145: the clock after its draw) -/
  from' : Nat
  parked : Bool
  /-- the priority its split gave it (R101), 0 for a drawn group -/
  prio : Nat
  /-- the model's own: its word is part executed -/
  part : Option PartIssue
deriving DecidableEq, Repr

/-- A bin (R144): its key, F and A, and the threads filed with their filing clocks, in filing order. -/
structure Bin where
  key : Word
  full : Nat
  age : Nat
  filed : List (Nat × Nat)
deriving DecidableEq, Repr

/-- The kernel header's fields (R50). -/
structure Header where
  addr : Word
  ver : Nat
  nreg : Nat
  xsize : Nat
  qmask : BitVec 8
  argsz : Nat
  entry : Nat
  idem : Bool
  prio : Nat
  fw : List Nat
  tb : Nat
  ab : Nat
  fill : Nat
  age : Nat
  budget : Nat
  /-- engine-context numbers of tl2 to tl15 -/
  ectx : List Nat
deriving DecidableEq, Repr

/-- One entry of a hardware queue beside its stored word (R157): the stamp, and the token when the push was of a
pending value. -/
structure QEntry where
  stamp : Nat
  tok : Option Nat
deriving DecidableEq, Repr

/-- A hardware queue w0 to w7 (R154). COUNT is the length of `entries`. -/
structure Queue where
  init : Bool
  closed : Bool
  nostamp : Bool
  base : Nat
  logCap : Nat
  head : Nat
  tail : Nat
  entries : List QEntry
deriving DecidableEq, Repr

/-- A rendezvous point (R175). -/
structure Point where
  exp : Nat
  ph : Bool
  cur : Nat
  nxt : Nat
deriving DecidableEq, Repr

/-- A snapshot of a descriptor (R208): its 24 words and its address. -/
structure Snap where
  words : List Word
  addr : Word
deriving DecidableEq, Repr

/-- What a command captured of a table entry (R217). -/
inductive Capture where
  | invalid
  | loading (op : Nat)
  | valid (s : Snap)
deriving DecidableEq, Repr

/-- A Bruin command (R220, R226, R227, R233). -/
inductive BCmd where
  | mma (w : Word)
  | mzero (n : Nat)
  | mzeroRel (n : Nat)
  | mld (a b : Word)
  | mst (a b : Word)
  | mpoly (ctl : Word)
  | miter (ctl : Word) (cap : Nat) (trap : Bool)
deriving DecidableEq, Repr

/-- A tile or matrix: the elements that are not +0.0, under 128 × row + column. -/
abbrev Tile := List (Nat × BitVec 32)

/-- A Bruin command with what it captured (R217, R234): snapshots, coefficients, its write number, its status token. -/
structure BEntry where
  cmd : BCmd
  /-- the slot whose register the status goes to -/
  sid : Nat
  snaps : List (Nat × Capture)
  cf : List (BitVec 32)
  wnum : Option Nat
  tok : Option Nat
deriving DecidableEq, Repr

/-- How far the head command has come (R221, R225, R235, R236). -/
structure BProg where
  step : Nat
  mats : List Tile
  nums : List (BitVec 32)
  k : Nat
  /-- writes of the unit under way that have not been performed (R227) -/
  todo : List (Word × List Byte)
deriving DecidableEq, Repr

/-- A team's Bruin queue (R218 to R225). `done` is tl0. -/
structure BruinQ where
  cmds : List BEntry
  accepted : Nat
  done : Nat
  prog : Option BProg
  stopped : Bool
  stalled : Bool
  /-- clock at which the head command began to wait for a tile (R224) -/
  tileWait : Option Nat
  lastServed : Nat
  /-- a full swap has taken the scratch tiles of the running command (R240) -/
  parked : Bool
  /-- the model's own: passes the engine had started when the queue was last not ready (R225) -/
  since : Nat
deriving DecidableEq, Repr

/-- A convergence register (R181) with its issue latch (R219). -/
structure Conv where
  cnt : Nat
  sig : Nat
  armed : Bool
  cmd : Word
  latch : Option (Word × Nat)
deriving DecidableEq, Repr

/-- A remote answer that has been received, by address (R381). -/
structure RemoteData where
  addr : Word
  bytes : List Byte
deriving DecidableEq, Repr

/-- One ray in the queue (R318). -/
structure Ray where
  num : Nat
  sid : Nat
  tok : Option Nat
  dst : BitVec 6
  words : List Word
  addr : Word
  /-- location of a record in the slice, by a window of its thread; any other is reached through pages -/
  place : Option Nat
  root : Word
  /-- the write of its hit that it counts as (R132) -/
  wnum : Nat
  /-- a hit whose U and V are still to be written: the result and their bytes -/
  found : Option (Word × List Byte)
deriving DecidableEq, Repr

/-- A team's ray queue (R318). `done` is tl1. -/
structure RayQ where
  rays : List Ray
  accepted : Nat
  done : Nat
  stopped : Bool
  stalled : Bool
  /-- the request that the engine waits for, and the answers that have come for its first ray (R381) -/
  waiting : Option Nat
  got : List RemoteData
deriving DecidableEq, Repr

/-- The act of a team (R312, R332). -/
structure ActRef where
  stream : Nat
  frame : Nat
  strip : Nat
  output : Bool
deriving DecidableEq, Repr

/-- A team (R22, R29, R154, R175, R181, R218, R231). -/
structure Team where
  ctx : Nat
  card : Nat
  core : Nat
  bank : Nat
  hdr : Header
  k : Vector Word 32
  base : Word
  count : Nat
  allocOff : Nat
  allocSegs : Nat
  issued : Nat
  frozen : Bool
  killed : Bool
  failed : Bool
  w : Vector Queue 8
  rv : Vector Point 24
  cv : Vector Conv 16
  cf : Vector (BitVec 32) 16
  bruin : BruinQ
  tiles : Tbl Tile
  rays : RayQ
  act : Option ActRef
  /-- the WID base of the original team, for a resumption team (R206) -/
  resumption : Option Word
  /-- no thread is left -/
  finished : Bool
  /-- retired or killed: its allocation and tiles are free (R174, R274) -/
  gone : Bool
  /-- the model's own: an access of it has read a word of the tables, at that physical address, with an uncorrectable error, for
  which it is killed (R367) -/
  lost : Option Word
deriving DecidableEq, Repr

/-- Where a ready card stands (R191). -/
inductive CardPlace where
  | ready (cluster : Nat)
  | spread
  | placed
deriving DecidableEq, Repr

/-- The events that decide a card's CODE (R196). -/
structure Outcomes where
  powerKill : Bool
  deadlineMiss : Bool
  killed : Bool
  retryExhausted : Bool
  faulted : Bool
  badVersion : Bool
deriving DecidableEq, Repr

/-- A launched card (R187, R190, R192). -/
structure Card where
  ctx : Nat
  addr : Word
  words : List Word
  hdr : Header
  args : List Word
  prio : Nat
  place : CardPlace
  /-- the queue that its acceptance put it into (R191, R201) -/
  home : CardPlace
  /-- its place in the order of acceptance (R278) -/
  order : Nat
  /-- in the overflow list of R191 -/
  overflow : Bool
  next : Nat
  total : Nat
  again : List Word
  /-- continuation records not yet resumed (R192) -/
  records : Nat
  prefer : Option Nat
  lastOf : List (Word × Nat)
  started : Bool
  tries : Nat
  late : Bool
  out : Outcomes
  journal : Option Nat
  cluster : Nat
  act : Option ActRef
  /-- cores and bank that may take its teams: all, except for an act (R332) -/
  cores : Nat
  bank : Option Nat
  /-- steps of R192 done -/
  phase : Nat
  succ : Nat
deriving DecidableEq, Repr

/-- A trap record (R111) before it is written, and the slot of the halted thread it stands for. -/
structure TrapRec where
  card : BitVec 32
  extra : BitVec 14
  ctx : Nat
  cluster : Nat
  core : Nat
  bank : Nat
  exited : Bool
  replay : Bool
  fatal : Bool
  wid : Word
  code : BitVec 5
  pc : Word
  addr : Word
  owner : Option Nat
  /-- the engine that the record holds: class and number -/
  engine : Option (Nat × Nat)
  /-- clock at which it was raised -/
  clk : Nat
deriving DecidableEq, Repr

/-- The kind of a page (R249 to R252). -/
inductive Kind where
  | rc
  | so
  | uo
deriving DecidableEq, Repr

/-- The ordering field of an access (R117). -/
inductive Ord where
  | plain
  | stream
  | acquire
  | release
  | sc
deriving DecidableEq, Repr

/-- The path of an access, for drains (R133). -/
inductive Path where
  | shared
  | cluster
  | globalLp6
  | globalOther
  | hostWindow
  | remote
  | all
deriving DecidableEq, Repr

/-- A part of an access within one page or window (R121): its place, length, first byte's address and kind. -/
structure Piece where
  place : Nat
  /-- its global address, after the LOCAL window (R114) -/
  gva : Nat
  /-- its page is mapped; a part of a logged access may not be (R126), and then `place` says nothing -/
  mapped : Bool
  len : Nat
  va : Word
  kind : Kind
  path : Path
  /-- the translation used: page number and log₂ of its size; none in a window -/
  page : Option (Nat × Nat)
  /-- of a remote part that crosses a page: the kind of the second one (R251) -/
  more : Option Kind := none
deriving DecidableEq, Repr

/-- What an access in flight does when it is performed (R122, R123, R129, R136). -/
inductive MemAct where
  /-- load: sizes and extension of each value, with its token -/
  | load (parts : List (Nat × Bool × Nat))
  | store (bytes : List Byte)
  | atomic (opc : BitVec 7) (typ : BitVec 2) (b c : Word) (tok : Option Nat)
  /-- descriptor load: entry and token -/
  | descriptor (id : Nat) (tok : Nat)
  /-- texture sample: the captured snapshot, coordinates, level of detail -/
  | texture (s : Snap) (uv : Word) (lod : BitVec 32) (tok : Nat)
  /-- pixel write -/
  | pixel (rec' : Word) (colour : Word)
  /-- tail of a chain: number and value -/
  | tail (chain : Nat) (n : Word)
deriving DecidableEq, Repr

/-- An access in flight (R241): issued, not yet performed. -/
structure MemOp where
  ctx : Nat
  sid : Nat
  team : Nat
  core : Nat
  bank : Nat
  pc : Word
  wid : Word
  pieces : List Piece
  act : MemAct
  ord : Ord
  scope : BitVec 3
  wnum : Option Nat
  /-- the side-log entry it is, if any: true once its record is posted -/
  logged : Bool
  /-- answers of owners to its remote parts (R380) -/
  got : List RemoteData
  /-- a logged access may retry: it is new, or a REPLAY has come (R126) -/
  retry : Bool
  /-- its owner has no page for it (R381): it waits for a REPLAY -/
  stuck : Bool
  /-- clock at which its word began to issue: the accesses of one issue share it (R242) -/
  clk : Nat
  /-- slots of the `tlbi` that wait for it: it was translated with an entry that they have dropped (R264) -/
  awaited : List Nat
  /-- a store that made a dead segment live at its issue (R152) -/
  woke : Bool := false
deriving DecidableEq, Repr

/-- A post in flight to another cluster's deque (R200). -/
structure PostMsg where
  ctx : Nat
  sid : Nat
  tok : Nat
  handle : Word
  core : Nat
deriving DecidableEq, Repr

/-- State of a bank flip (R276). -/
inductive Flip where
  | idle
  /-- landed: incoming bank, and the clock at which it becomes issuable -/
  | landing (bank : Nat) (at' : Nat)
deriving DecidableEq, Repr

/-- The stop block of a core (R356, R357). -/
structure StopBlock where
  dbase : Word
  ena : Bool
  enb : Bool
  requested : Bool
  stopped : Bool
  /-- clock of the stop cycle (R357) -/
  since : Nat
  dumped : Bool
  dbgaddr : Word
deriving DecidableEq, Repr

/-- A core (R132, R140, R142, R144, R148, R198, R276, R356). -/
structure CoreSt where
  iw : Vector Nat 2
  /-- numbers of the writes of each bank that are not complete; CW follows from them (R132) -/
  open' : Vector (List Nat) 2
  bins : Vector (List Bin) 2
  rotation : List Nat
  parked : Vector (List Nat) 2
  /-- the group that holds the issue slot (R20, R45) -/
  holder : Option Nat
  lastGroup : Option Nat
  /-- the side log: accesses in flight, oldest first (R126) -/
  sideLog : List Nat
  /-- the deque's two parts, bottom first (R198) -/
  deque : Vector (List Word) 2
  dqsplit : Nat
  bankctx : BitVec 16
  inForce : Option Nat
  flip : Flip
  flips : List Nat
  stop : StopBlock
  /-- register power blocks in Retention or Full, with the clock of last use (R28) -/
  power : Tbl (Bool × Nat)
  /-- elapsed clocks the core was stopped, for filing ages (R357) -/
  stoppedFor : Nat
  /-- device time in nanoseconds at which the bank in force became so (R276) -/
  turnFrom : Nat
  /-- clocks since the last sample with an issue; with groups all waiting on the scoreboard; with groups none of which was
  issuable for any other reason (R360) -/
  counts : Vector Nat 3
deriving DecidableEq, Repr

/-- A table entry held by a cluster's walker (R261): the addresses of a context that it covers, and the next table. -/
structure WalkEntry where
  ctx : Nat
  vpn : Nat
  log : Nat
  table : Nat
deriving DecidableEq, Repr

/-- A translation held by a TLB (R261). -/
structure TlbEntry where
  ctx : Nat
  vpn : Nat
  log : Nat
  pte : Word
deriving DecidableEq, Repr

/-- The trace unit of a cluster (R354). -/
structure Trace where
  tbase : Word
  tlog : Nat
  en : Bool
  twr : Word
  trd : Word
  tlost : Word
  /-- a SYNC record is due at this clock (R355) -/
  needSync : Bool
  /-- a record has been dropped since the last one written -/
  lost : Bool
  /-- records of this clock: kind, core, word 0 and word 1 -/
  buf : List (Nat × Nat × Word × Word)
deriving DecidableEq, Repr

/-- A strip being rasterised (R310, R337). -/
structure Raster where
  ctx : Nat
  stream : Nat
  frame : Nat
  strip : Nat
  team : Nat
  /-- LISTS, PRIMS and CAP of the strip's binner job -/
  lists : Word
  prims : Word
  cap : Nat
  /-- its list and primitives have been read -/
  begun : Bool
  /-- device time at which rasterisation began (R337) -/
  tras : Nat
  /-- the strip's primitives in list order: index and words -/
  list : List (Nat × List Word)
  /-- tiles done, and tiles done at the last checkpoint -/
  tile : Nat
  checked : Nat
  /-- quad records of the tiles begun, still to be pushed -/
  records : List Word
  stalled : Bool
  /-- the request that it waits for, and the answers that have come (R381) -/
  waiting : Option Nat
  got : List RemoteData
deriving DecidableEq, Repr

/-- A continuation taken by `work` that waits for a slot (R206). -/
structure Resume where
  ctx : Nat
  /-- the popping core -/
  core : Nat
  /-- the cluster whose pool holds the record, as the handle names it (R198) -/
  cluster : Nat
  index : Nat
deriving DecidableEq, Repr

/-- A cluster (R151, R169, R170, R185, R191, R224, R261, R354, R369). -/
structure ClusterSt where
  /-- live segments, rising (R151) -/
  live : List Nat
  /-- slice banks not Off: Full or Retention, and last use (R151) -/
  banks : Tbl (Bool × Nat)
  owner : Tbl (BitVec 16)
  ownrej : Bool
  cpbase : Tbl Word
  cpn : Tbl Nat
  errors : Nat
  resume : List Resume
  /-- records that wait on tl0 or tl1 of their team: context, index, team, timeline (R204) -/
  ownTl : List (Nat × Nat × Nat × Nat)
  bruinServed : Nat
  copyTurn : Nat
  tlbMem : List TlbEntry
  tlbMatrix : List TlbEntry
  tlbCopy : List TlbEntry
  tlbFetch : List TlbEntry
  walks : List WalkEntry
  trace : Trace
  grant : Nat
  bias : Nat
  floor : Bool
  fmhz : Nat
  /-- arithmetic clocks that the trace unit had counted, in 1700ths, at clock `lcycAt`, since when FMHZ stands (R354) -/
  lcycAcc : Nat
  lcycAt : Nat
  raster : Option Raster
  physical : Nat
  /-- out of service since it, or its Bruin engine, failed (R278) -/
  down : Bool
deriving DecidableEq, Repr

/-- An entry of a chain or ring in execution (R285, R294). (DEDUCED: log 36) -/
structure Running where
  words : List Word
  src : Capture
  dst : Capture
  idx : Capture
  /-- the snapshots have passed their checks (R293) -/
  checked : Bool
  /-- linear position reached, in elements or bytes -/
  pos : Nat
  finished : Bool
  waiting : Option Nat
  got : List RemoteData
  /-- the cluster whose engine accepted the entry (R281) -/
  cluster : Nat
  /-- writes of the unit under way that have not been performed (R294) -/
  todo : List (Word × List Byte)
deriving DecidableEq, Repr

/-- A `tail` whose chain has not reached it (R299): its value and the write it counts as. -/
structure TailWait where
  n : Word
  core : Nat
  bank : Nat
  wnum : Nat
  team : Nat
deriving DecidableEq, Repr

/-- A chain, or a binner's ring (R280, R285, R308). -/
structure Chain where
  base : Word
  len : Nat
  cluster : Nat
  en : Bool
  tail : Word
  done : Word
  frozen : Bool
  stall : Bool
  waitseq : Bool
  /-- the line at whose write a chain that waits for its number reads again (R285) -/
  line : Option Nat
  draining : Bool
  origin : Word
  next : Word
  seg : Word
  slot : Nat
  run : Option Running
  /-- tail writes not reached (R299) -/
  tails : List TailWait
  /-- the model's own: a write has reached the block, so IDLE no longer has its reset value (log 63) -/
  written : Bool
deriving DecidableEq, Repr

/-- State of a table entry (R208). -/
inductive DescEntry where
  | loading (op : Nat)
  | valid (s : Snap)
deriving DecidableEq, Repr

/-- A context's saved state during a full swap (R277). -/
structure Saved where
  threads : Tbl Thread
  /-- core, bank and bin; filing clocks as ages at the stop -/
  bins : List (Nat × Nat × Bin)
  /-- core, bank and part of the deque -/
  parts : List (Nat × Nat × List Word)
  /-- cluster and live segment of an allocation -/
  segs : List (Nat × Nat)
  /-- bytes of those segments, by location -/
  cells : List Host.Cell
  /-- words of those segments with an error (R185) -/
  flaws : Tbl Nat
  /-- the units of shadow storage that hold it, in order, with their sizes in bytes: bank 2 × core + bank, or granule
  1,024 + 512 × cluster + granule (R277) -/
  units : List (Nat × Nat)
  /-- the bytes that the context's own state, then each team's, takes, in order (R275, R277) -/
  sizes : List (Option Nat × Nat)
deriving DecidableEq, Repr

/-- A context (R265, R268, R208, R270, R279, R361, R362, R378). -/
structure CtxSt where
  slice : Nat
  maxprio : Nat
  priv : Bool
  locbase : Word
  shrbase : Word
  clubase : Word
  locsz : Nat
  locpool : Word
  ptroot : Word
  tqbase : Word
  tqhead : BitVec 32
  tqtail : BitVec 32
  rej : Bool
  frozen : Bool
  tqovf : Bool
  part : BitVec 24
  csave : Word
  cmd : Word
  cmdarg : Word
  waiting : List TrapRec
  desc : Tbl DescEntry
  /-- engine-context numbers that system software has not enabled (R267) -/
  ectxOff : List Nat
  chains : Tbl Chain
  binners : Tbl Chain
  rasterTl : Tbl Word
  /-- clusters whose rasteriser is frozen for this context (R310) -/
  rasterFrozen : List Nat
  streamTl : Tbl Word
  eventTl : Tbl Word
  capaddr : Word
  capturing : Bool
  capStart : Word
  capIssued : Nat
  capPasses : Nat
  capBytes : Nat
  capEnergy : Nat
  capSwaps : Nat
  energy : Word
  podgid : BitVec 8
  saved : Option Saved
  swapping : Bool
  /-- the slot of the next trap record could not be written (R271) -/
  tqStuck : Bool
  /-- device time in nanoseconds at which its turn on its banks began (R269) -/
  turnFrom : Nat
  /-- its time slice has ended, and it waits for its next turn (R269) -/
  sliced : Bool
deriving DecidableEq, Repr

/-- The time-sync block (R322 to R325). -/
structure TimeSt where
  /-- device time in units of 2^-16 ns -/
  now : Nat
  residue : Nat
  fracLatch : BitVec 16
  rateadj : BitVec 32
  toffset : Word
  domain : BitVec 8
  en : Bool
  port : BitVec 5
  stepped : Bool
  alarm : Bool
  state : Nat
  t1 : Option Nat
  t2 : Option Nat
  t3 : Option Nat
  good : Nat
  last : Nat
  /-- the model's own: the 100 ms of device time in which the last clock ended, up to which the scrubber has passed (R185) -/
  scrubbed : Nat
  /-- the messages written to the mailbox of the host link, with their departure times (R324) -/
  mailbox : List (Nat × List Byte)
deriving DecidableEq, Repr

/-- A strip's slot state (R305, R306, R340). -/
inductive SlotState where
  | ready
  | missed
  | bad
deriving DecidableEq, Repr

/-- An open act or output card of a stream (R332, R335). -/
structure OpenAct where
  frame : Nat
  strip : Nat
  card : Nat
  team : Option Nat
  output : Bool
  zeroed : Bool
  rasterised : Bool
  /-- killed at t_need (R340) -/
  abandoned : Bool
  /-- CODE of its card once it has retired -/
  closed : Option Nat
deriving DecidableEq, Repr

/-- A stream (R320, R326 to R343). -/
structure Stream where
  srec : Word
  state : Nat
  rej : Nat
  frame : BitVec 32
  strip : BitVec 16
  level : BitVec 3
  misses : Word
  raises : Word
  firstf : Word
  rec' : List Word
  odesc : List Word
  ctx : Nat
  /-- next act to start -/
  nextF : Nat
  nextS : Nat
  prevRaised : Bool
  acts : List OpenAct
  /-- running number and state of the strips done -/
  slots : Tbl SlotState
  /-- entries of its completed binner jobs, the latest of each frame, context and binner: 256 × frame + 4 × context +
  binner (R308, R332) -/
  jobs : Tbl (List Word)
  missed : List Nat
  /-- running numbers of strips whose output card has still to be accepted (R335) -/
  outputs : List Nat
  bsrd : Word
  bswr : Word
  frames : Word
  encF : Nat
  encRow : Nat
  encSkip : Nat
  encForceKey : Bool
  line : Nat
  lineF : Nat
deriving DecidableEq, Repr

/-- A fetched packet (R349). -/
structure Packet where
  num : Word
  words : List Word
  /-- code and address of the error of its read, other than by its page (R364, R367) -/
  flaw : Option (BitVec 5 × Word) := none
deriving DecidableEq, Repr

/-- A host queue (R344). -/
structure HostQ where
  rbase : Word
  ctx : Nat
  qprio : Nat
  logn8 : Bool
  en : Bool
  kick : Word
  done : Word
  fcode : Nat
  stopped : Bool
  fetched : List Packet
  cards : List Nat
  /-- GRAPH: the snapshot and the entry reached (R348) -/
  graph : Option (List Word × Nat)
  /-- the model's own: a write has reached the block, so IDLE no longer has its reset value (log 63) -/
  written : Bool
deriving DecidableEq, Repr

/-- A control core (R351). -/
structure CtlCore where
  x : Vector Word 32
  pc : Word
  packet : List Word
  mepc : Word
  mcause : Word
  mtval : Word
  mtvec : Word
  mstatus : Word
  code : Tbl IWord
  /-- the model's own: it has an instruction to execute in this clock -/
  turn : Bool
  /-- queue of the packet in execution (R346) -/
  cur : Option Nat
  /-- by QPRIO, the queue served last (R346) -/
  lastQ : Tbl Nat
  /-- queue whose packet `cx.rfetch` read last, which names the context that the core acts for (R351) -/
  fetchQ : Nat
deriving DecidableEq, Repr

/-- The counter series (R360). -/
structure Series where
  sbase : Word
  slog : Nat
  k : Nat
  en : Bool
  swr : Word
  srd : Word
  slost : Word
  lastTick : Nat
  /-- the arithmetic clocks of each cluster, in 1700ths, from which the counts of the next sample run -/
  lastParts : List Nat
deriving DecidableEq, Repr

/-- The power block and the package (R363 to R377). -/
structure Package where
  modlimit : BitVec 16
  slope : BitVec 16
  icrit : BitVec 16
  racklimit : BitVec 16
  kills : Word
  limit : Nat
  draw : BitVec 16
  demand : BitVec 16
  /-- last draw and demand of each peer, and when they came -/
  peers : Tbl (BitVec 16 × BitVec 16 × Nat)
  /-- device time at which the last BUDGET messages went (R371) -/
  lastBudget : Nat
  grpown : Tbl Word
  dpstat : Tbl (BitVec 8)
  /-- the model's own: frame, line and bytes that each display output sent last (R321) -/
  sent : Tbl (Nat × Nat × List Byte)
  svccmd : Word
  svcarg : Word
  svcstat : Word
  svcBusy : Bool
  firmware : Nat
  booted : Bool
  halted : Bool
  bootStatus : BitVec 4
  modulesDown : List Nat
  /-- MSI-X vectors that have fired; a context's until the host has serviced it (R364) -/
  msix : List Nat
  /-- interrupts given, by vector -/
  interrupts : Tbl Nat
  spares : List Nat
  reconfigure : Option Nat
  energyDie : Word
  energyModule : Word
  energyCluster : Tbl Word
  energyLatch : Tbl (BitVec 32)
  correctable : Tbl Nat
  lastGrant : Nat
  /-- cluster whose decrement of a card's PRED came first: context, card address, cluster (R372) -/
  predFirst : List (Nat × Word × Nat)
deriving DecidableEq, Repr

/-- The master of a remote request (R381): an access in flight, a chain or a binner's ring, a team's ray queue, a
cluster's rasteriser. -/
inductive Master where
  | access (op : Nat)
  | chain (ctx ch : Nat)
  | ray (team : Nat)
  | raster (cluster : Nat)
deriving DecidableEq, Repr

/-- A remote request that has been sent (R379, R381). (DESIGN CHOICE: log 60) -/
structure RemoteOut where
  num : BitVec 32
  master : Master
  dst : Nat
  req : RemoteReq
  sent : Nat
  alt : Bool
  waiting : Bool
deriving DecidableEq, Repr

/-- A message on the control channel (R382). (DESIGN CHOICE: log 60) -/
inductive ControlMsg where
  /-- draw and demand in watts of `src`, for `dst`, with the sender's device time, by the port it leaves by (R382) -/
  | budget (port src dst : Nat) (time : Word) (draw demand : BitVec 16)
  /-- a 1588 message of this device, on a port: its departure time and its bytes (R382) -/
  | delayReq (port : Nat) (t3 : Nat) (bytes : List Byte)
deriving DecidableEq, Repr

/-- The fabric block (R378, R383). -/
structure Fabric where
  pod : BitVec 8
  fto : BitVec 32
  peer : Tbl (BitVec 8)
  up : List Nat
  retrain : List Nat
  routes : Tbl (BitVec 12)
  ingress : Tbl (BitVec 8)
  /-- the ingress translator's TLB (R263) -/
  tlb : List TlbEntry
  out : List RemoteOut
  served : List (Nat × BitVec 32 × RemoteAns)
  answers : List (Nat × BitVec 32 × RemoteAns)
  control : List ControlMsg
  nextNum : BitVec 32
deriving DecidableEq, Repr

/-- The journal (R352). -/
structure Journal where
  jbase : Word
  jlog : Nat
  jseq : Word
deriving DecidableEq, Repr

/-- The device. (DESIGN CHOICE: log 2) -/
structure State where
  /-- memory: locations and bytes, in canonical form -/
  mem : List Host.Cell
  /-- words of memory whose check bits show an error, by location / 8 (R185, R367): 1 can be corrected, 2 cannot, 3 cannot
  and has been dealt with; 4: a word of host memory whose next access gets no completion (R364) -/
  flaws : Tbl Nat
  clusters : Tbl ClusterSt
  cores : Tbl CoreSt
  ctxs : Tbl CtxSt
  threads : Tbl Thread
  groups : Tbl Group
  teams : Tbl Team
  cards : Tbl Card
  ops : Tbl MemOp
  posts : Tbl PostMsg
  streams : Tbl Stream
  hostqs : Tbl HostQ
  ctl : Tbl CtlCore
  journal : Journal
  time : TimeSt
  series : Series
  package : Package
  fabric : Fabric
  /-- the model's own: steps the surroundings bring next, in order -/
  agenda : List Instr
  /-- the model's own: the turns that are left of this clock: a core's by its number, 192 more for one whose word takes a task,
  384 more for one that writes its dump, and 768 for the deque units (R199) -/
  todo : List Nat
  clk : Nat
  /-- the model's own: the group whose word is being executed -/
  issuing : Option Nat
  /-- the model's own: the last word executed was held at issue -/
  stalled : Bool
  /-- the model's own: it was the scoreboard that held it (R16, R360) -/
  scored : Bool
  /-- the model's own: counter of tokens, groups, teams, cards and accesses -/
  fresh : Nat
  /-- the model's own: counter of free values -/
  freeCtr : Nat
deriving DecidableEq, Repr

/-! ### The state after reset -/

/-- A core after reset. (DESIGN CHOICE: log 3) -/
def CoreSt.reset : CoreSt where
  iw := Vector.replicate 2 0
  open' := Vector.replicate 2 []
  bins := Vector.replicate 2 []
  rotation := []
  parked := Vector.replicate 2 []
  holder := none
  lastGroup := none
  sideLog := []
  deque := Vector.replicate 2 []
  dqsplit := 256
  bankctx := 0
  inForce := none
  flip := .idle
  flips := []
  stop :=
    { dbase := 0, ena := false, enb := false, requested := false, stopped := false, since := 0, dumped := false,
      dbgaddr := 0 }
  power := []
  stoppedFor := 0
  turnFrom := 0
  counts := Vector.replicate 3 0

/-- A cluster after reset; its number is `c`. (DESIGN CHOICE: log 3) -/
def ClusterSt.reset (c : Nat) : ClusterSt where
  live := []
  banks := []
  owner := []
  ownrej := false
  cpbase := []
  cpn := []
  errors := 0
  resume := []
  ownTl := []
  bruinServed := 0
  copyTurn := 0
  tlbMem := []
  tlbMatrix := []
  tlbCopy := []
  tlbFetch := []
  walks := []
  trace :=
    { tbase := 0, tlog := 0, en := false, twr := 0, trd := 0, tlost := 0, needSync := false,
      lost := false, buf := [] }
  grant := 0
  bias := 0
  floor := false
  fmhz := 1700
  lcycAcc := 0
  lcycAt := 0
  raster := none
  physical := c
  down := false

/-- A context after reset (R265: the window bases are the defaults of R114). (DESIGN CHOICE: log 3) -/
def CtxSt.reset : CtxSt where
  slice := 0
  maxprio := 0
  priv := false
  locbase := 0x00FFFFFC00000000#64
  shrbase := 0x00FFFFFD00000000#64
  clubase := 0x00FFFFFE00000000#64
  locsz := 0
  locpool := 0
  ptroot := 0
  tqbase := 0
  tqhead := 0
  tqtail := 0
  rej := false
  frozen := false
  tqovf := false
  part := 0
  csave := 0
  cmd := 0
  cmdarg := 0
  waiting := []
  desc := []
  ectxOff := []
  chains := []
  binners := []
  rasterTl := []
  rasterFrozen := []
  streamTl := []
  eventTl := []
  capaddr := 0
  capturing := false
  capStart := 0
  capIssued := 0
  capPasses := 0
  capBytes := 0
  capEnergy := 0
  capSwaps := 0
  energy := 0
  podgid := 0
  saved := none
  swapping := false
  tqStuck := false
  turnFrom := 0
  sliced := false

/-- A chain or ring after reset (R280). (DESIGN CHOICE: log 3) -/
def Chain.reset : Chain where
  base := 0
  len := 0
  cluster := 0
  en := false
  tail := 0
  done := 0
  frozen := false
  stall := false
  waitseq := false
  line := none
  draining := false
  origin := 0
  next := 1
  seg := 0
  slot := 0
  run := none
  tails := []
  written := false

/-- A stream after reset (R326). (DESIGN CHOICE: log 3) -/
def Stream.reset : Stream where
  srec := 0
  state := 0
  rej := 0
  frame := 0
  strip := 0
  level := 0
  misses := 0
  raises := 0
  firstf := 0
  rec' := []
  odesc := []
  ctx := 0
  nextF := 0
  nextS := 0
  prevRaised := false
  acts := []
  slots := []
  jobs := []
  missed := []
  outputs := []
  bsrd := 0
  bswr := 0
  frames := 0
  encF := 0
  encRow := 0
  encSkip := 0
  encForceKey := false
  line := 0
  lineF := 0

/-- A host queue after reset (R344). (DESIGN CHOICE: log 3) -/
def HostQ.reset : HostQ where
  rbase := 0
  ctx := 0
  qprio := 0
  logn8 := false
  en := false
  kick := 0
  done := 0
  fcode := 0
  stopped := false
  fetched := []
  cards := []
  graph := none
  written := false

/-- A control core after reset. (PRESUMED: log 21) -/
def CtlCore.reset : CtlCore where
  x := Vector.replicate 32 0
  pc := 0
  packet := []
  mepc := 0
  mcause := 0
  mtval := 0
  mtvec := 0
  mstatus := 0
  code := []
  turn := false
  cur := none
  lastQ := []
  fetchQ := 0

/-- The device right after reset. (DESIGN CHOICE: log 3) -/
def State.reset : State where
  mem := []
  flaws := []
  clusters := []
  cores := []
  ctxs := []
  threads := []
  groups := []
  teams := []
  cards := []
  ops := []
  posts := []
  streams := []
  hostqs := []
  ctl := []
  journal := { jbase := 0, jlog := 0, jseq := 0 }
  time :=
    { now := 0, residue := 0, fracLatch := 0, rateadj := 0, toffset := 0, domain := 0, en := false, port := 0,
      stepped := false, alarm := false, state := 0, t1 := none, t2 := none, t3 := none, good := 0, last := 0, scrubbed := 0,
      mailbox := [] }
  series := { sbase := 0, slog := 0, k := 0, en := false, swr := 0, srd := 0, slost := 0, lastTick := 0, lastParts := [] }
  package :=
    { modlimit := 1350, slope := 100, icrit := 2200, racklimit := 0, kills := 0, limit := 1350, draw := 0,
      demand := 0, peers := [], lastBudget := 0, grpown := [], dpstat := [], sent := [], svccmd := 0, svcarg := 0, svcstat := 0, svcBusy := false,
      firmware := 0, booted := false, halted := false, bootStatus := 0, modulesDown := [], msix := [], interrupts := [],
      spares := [24, 25], reconfigure := none, energyDie := 0, energyModule := 0,
      energyCluster := [], energyLatch := [], correctable := [], lastGrant := 0, predFirst := [] }
  fabric :=
    { pod := 0, fto := 10000, peer := [], up := [], retrain := [], routes := [], ingress := [], tlb := [], out := [],
      served := [], answers := [], control := [], nextNum := 0 }
  agenda := []
  todo := []
  clk := 0
  issuing := none
  stalled := false
  scored := false
  fresh := 0
  freeCtr := 0

end Sys2Proof.Machine
end

