-- ==== Sys2Proof/Machine/Bits.lean ====
section
/-! DEFINITION. Tables, fixed register files and bit fields: the plain operations the machine is written with. -/

namespace Sys2Proof.Machine

/-- The entry of a table under `k`. -/
def tget {α : Type} : Tbl α → Nat → Option α
  | [], _ => none
  | (k', a) :: r, k => if k' = k then some a else tget r k

/-- The table with entry `k` set, keys still strictly rising. -/
def tset {α : Type} : Tbl α → Nat → α → Tbl α
  | [], k, a => [(k, a)]
  | (k', b) :: r, k, a =>
    if k < k' then (k, a) :: (k', b) :: r else if k = k' then (k, a) :: r else (k', b) :: tset r k a

/-- The table without entry `k`. -/
def tdel {α : Type} : Tbl α → Nat → Tbl α
  | [], _ => []
  | (k', b) :: r, k => if k = k' then tdel r k else (k', b) :: tdel r k

/-- The entry of a table, or its default. -/
def tgetD {α : Type} (t : Tbl α) (k : Nat) (d : α) : α := (tget t k).getD d

/-- The table with the entry under `k` changed, if there is one. -/
def tupd {α : Type} (t : Tbl α) (k : Nat) (f : α → α) : Tbl α :=
  match tget t k with
  | some a => tset t k (f a)
  | none => t

/-- Every entry changed. -/
def tmap {α : Type} (t : Tbl α) (f : Nat → α → α) : Tbl α := t.map fun p => (p.1, f p.1 p.2)

/-- Element `i` of a register file; beyond it, the default. -/
def vget {α : Type} {n : Nat} (v : Vector α n) (i : Nat) (d : α) : α := v.toList.getD i d

/-- A register file with element `i` set; beyond it, unchanged. -/
def vset {α : Type} {n : Nat} (v : Vector α n) (i : Nat) (a : α) : Vector α n := v.setIfInBounds i a

/-- Bits [hi:lo] of a word, as a number. -/
def bits (w : Word) (hi lo : Nat) : Nat := w.toNat / 2 ^ lo % 2 ^ (hi - lo + 1)

/-- Bit `i` of a word. -/
def bitAt (w : Word) (i : Nat) : Bool := w.toNat / 2 ^ i % 2 == 1

/-- A word of 64 bits from a number, modulo 2^64. -/
def wd (n : Nat) : Word := BitVec.ofNat 64 n

/-- A word from an integer, modulo 2^64. -/
def wi (z : Int) : Word := BitVec.ofInt 64 z

/-- A number of `n` bits read as two's complement. -/
def sgn (n x : Nat) : Int := if x % 2 ^ n < 2 ^ (n - 1) then (x % 2 ^ n : Int) else (x % 2 ^ n : Int) - 2 ^ n

/-- Sign extension of a field to a word. -/
def sx {n : Nat} (x : BitVec n) : Word := x.signExtend 64

/-- Bytes of a number, little-endian (R2). -/
def leBytes : Nat → Nat → List Byte
  | 0, _ => []
  | n + 1, x => BitVec.ofNat 8 x :: leBytes n (x / 256)

/-- The number that bytes hold, little-endian (R2). -/
def leNat : List Byte → Nat
  | [] => 0
  | b :: r => b.toNat + 256 * leNat r

/-- The words that bytes hold, eight bytes each; `n` words. -/
def leWords : Nat → List Byte → List Word
  | 0, _ => []
  | n + 1, bs => wd (leNat (bs.take 8)) :: leWords n (bs.drop 8)

/-- Word `i` of a record, zero beyond its end. -/
def wordAt (ws : List Word) (i : Nat) : Word := ws.getD i 0

/-- The lowest set bit of a number below 2^n; `n` if none. -/
def lowBit : Nat → Nat → Nat
  | 0, _ => 0
  | n + 1, x => if x % 2 == 1 then 0 else 1 + lowBit n (x / 2)

/-- Number of one bits below position `n`. -/
def popCount : Nat → Nat → Nat
  | 0, _ => 0
  | n + 1, x => x % 2 + popCount n (x / 2)

/-- Binary logarithm, rounded down, of a number with at most `n` bits. -/
def log2 : Nat → Nat → Nat
  | 0, _ => 0
  | n + 1, x => if x < 2 then 0 else 1 + log2 n (x / 2)

/-- Division rounded up. -/
def ceilDiv (a b : Nat) : Nat := (a + b - 1) / b

/-- Insertion into a list kept in rising order, without repeats. -/
def insRise : List Nat → Nat → List Nat
  | [], k => [k]
  | a :: r, k => if k < a then k :: a :: r else if k = a then a :: r else a :: insRise r k

/-- The least element by a measure, first among equals. -/
def minBy {α : Type} (f : α → Nat) : List α → Option α
  | [] => none
  | a :: r =>
    match minBy f r with
    | none => some a
    | some b => if f b < f a then some b else some a

/-- The greatest element by a measure, first among equals. -/
def maxBy {α : Type} (f : α → Nat) : List α → Option α
  | [] => none
  | a :: r =>
    match maxBy f r with
    | none => some a
    | some b => if f a < f b then some b else some a

/-- Insertion into a list in rising order of a measure, after its equals. -/
def insertBy {α : Type} (f : α → Nat) (a : α) : List α → List α
  | [] => [a]
  | b :: r => if f a < f b then a :: b :: r else b :: insertBy f a r

/-- A list in rising order of a measure; equals keep their order. -/
def sortBy {α : Type} (f : α → Nat) (xs : List α) : List α := xs.foldl (fun l a => insertBy f a l) []

/-- The least number from `a` on, of the next `n`, that a test accepts. -/
def findFrom (p : Nat → Bool) : Nat → Nat → Option Nat
  | 0, _ => none
  | n + 1, a => if p a then some a else findFrom p n (a + 1)

end Sys2Proof.Machine
end

