-- ==== Sys2Proof/Machine/Descriptor.lean ====
section
/-! DEFINITION. The fields of a tensor descriptor (R209, R210), the places of its elements (R211, R212), and what an `mst`
writes of it (R227). -/

namespace Sys2Proof.Machine

/-- FMT. -/
def dFmt (d : List Word) : Nat := bits (wordAt d 0) 3 0

/-- RANK. -/
def dRank (d : List Word) : Nat := bits (wordAt d 0) 7 4

/-- SIZEi. -/
def dSize (d : List Word) (i : Nat) : Nat := bits (wordAt d (3 + i / 2)) (32 * (i % 2) + 31) (32 * (i % 2))

/-- STRIDEi. -/
def dStride (d : List Word) (i : Nat) : Int := sgn 64 (wordAt d (9 + i)).toNat

/-- A DXB format. -/
def dDxb (d : List Word) : Bool := dFmt d == 3 || dFmt d == 4

/-- DXB8. -/
def dEight (d : List Word) : Bool := dFmt d == 3

/-- Bytes of a DXB block. -/
def dBlock (d : List Word) : Nat := if dEight d then 32 else 16

/-- Bytes of an element, DXB apart. -/
def fmtBytes : Nat → Nat
  | 0 => 4
  | 1 => 2
  | 2 => 2
  | 5 => 8
  | 6 => 1
  | 7 => 2
  | 8 => 4
  | 9 => 8
  | _ => 1

/-- Σ id × STRIDEd over an index, from dimension `i` on. -/
def strideSum (d : List Word) : Nat → List Nat → Int
  | _, [] => 0
  | i, x :: r => x * dStride d i + strideSum d (i + 1) r

/-- The address of an element, DXB apart (R211). -/
def elemAddr (d : List Word) (ix : List Nat) : Word := wordAt d 1 + wi (strideSum d 0 ix)

/-- The byte offset of an element's DXB block from BASE (R212). -/
def blockOff (d : List Word) (ix : List Nat) : Int := strideSum d 1 (ix.drop 1) + (ix.headD 0 / 32 * dBlock d : Nat)

/-- The address of an element's DXB block. -/
def blockAddr (d : List Word) (ix : List Nat) : Word := wordAt d 1 + wi (blockOff d ix)

/-- The address of an element's exponent pair. -/
def pairAddr (d : List Word) (ix : List Nat) : Word := wordAt d 2 + wi (2 * blockOff d ix / dBlock d)

/-- An index lies inside a tensor. -/
def inside (d : List Word) (ix : List Nat) : Bool := (ix.zipIdx).all fun p => decide (p.1 < dSize d p.2)

/-- The units that `mst` writes, row by row and in a row by increasing address: elements, or DXB blocks of 32 columns,
inside the tensor. (DEDUCED: log 34) -/
def storeUnits (d : List Word) (row0 col0 : Nat) : List (Nat × Nat) :=
  let step := if dDxb d then 32 else 1
  let across := List.range (128 / step)
  let cols := if dStride d 0 < 0 then across.reverse else across
  (List.range 128).flatMap fun i => cols.filterMap fun j =>
    if inside d [col0 + step * j, row0 + i] then some (i, step * j) else none

/-- The pages that an `mst` at an origin writes to (R227), by first address: its units are aligned (R214), so each lies in
one page. (DEDUCED: log 35) -/
def mstPages (d : List Word) (row0 col0 : Nat) : List Word :=
  ((storeUnits d row0 col0).flatMap fun u =>
    let ix := [col0 + u.2, row0 + u.1]
    (if dDxb d then [blockAddr d ix, pairAddr d ix] else [elemAddr d ix]).map fun a => a &&& 0xFFFFFFFFFFFFF000#64).eraseDups

end Sys2Proof.Machine
end

