-- ==== Sys2Proof/Machine/Ops.lean ====
section
/-! DEFINITION. The named operations over the state: parts of the device by number, bytes of memory, pending values,
groups and bins, hardware queues, taking an exception (R110 to R112) and returning from one (R273). -/

namespace Sys2Proof.Machine

/-! ### Numbers of places -/

/-- The core index (8 × cluster + core) of a slot key (R265, LOCPOOL). -/
def sidCore (sid : Nat) : Nat := sid / 4096

/-- The cluster of a slot key. -/
def sidCluster (sid : Nat) : Nat := sid / 32768

/-- The bank of a slot key. -/
def sidBank (sid : Nat) : Nat := sid / 2048 % 2

/-- The home lane of a slot key (R30). -/
def sidLane (sid : Nat) : Nat := sid / 64 % 32

/-- The slot number within its lane and bank. -/
def sidSlot (sid : Nat) : Nat := sid % 64

/-- The key of a slot. -/
def sidOf (core bank lane slot : Nat) : Nat := ((core * 2 + bank) * 32 + lane) * 64 + slot

/-- Location of byte `off` of a cluster's slice. -/
def sliceLoc (cluster off : Nat) : Nat := 2 ^ 41 + cluster * 2 ^ 25 + off

/-- Location of byte `off` of the host window. -/
def hostLoc (off : Nat) : Nat := 2 ^ 42 + off

/-- Location of byte `off` of a context's notify aperture. -/
def notifyLoc (ctx off : Nat) : Nat := 2 ^ 43 + ctx * 4096 + off

/-- Location of byte `off` of the register aperture. -/
def regLoc (off : Nat) : Nat := 2 ^ 44 + off

/-- The slice a location lies in: cluster and offset. -/
def sliceOf (p : Nat) : Option (Nat × Nat) :=
  if 2 ^ 41 ≤ p ∧ p < 2 ^ 41 + 24 * 2 ^ 25 then some ((p - 2 ^ 41) / 2 ^ 25, (p - 2 ^ 41) % 2 ^ 25) else none

/-! ### Parts of the device -/

/-- A core by its index. -/
def State.core (s : State) (c : Nat) : CoreSt := tgetD s.cores c CoreSt.reset

/-- The state with core `c` changed. -/
def State.updCore (s : State) (c : Nat) (f : CoreSt → CoreSt) : State :=
  { s with cores := tset s.cores c (f (s.core c)) }

/-- A logical cluster. -/
def State.cluster (s : State) (c : Nat) : ClusterSt := tgetD s.clusters c (ClusterSt.reset c)

/-- The state with cluster `c` changed. -/
def State.updCluster (s : State) (c : Nat) (f : ClusterSt → ClusterSt) : State :=
  { s with clusters := tset s.clusters c (f (s.cluster c)) }

/-- A context. -/
def State.ctx (s : State) (c : Nat) : CtxSt := tgetD s.ctxs c CtxSt.reset

/-- The state with context `c` changed. -/
def State.updCtx (s : State) (c : Nat) (f : CtxSt → CtxSt) : State :=
  { s with ctxs := tset s.ctxs c (f (s.ctx c)) }

/-- A chain of a context, 0 to 63, or as number 64 + b the ring of binner b, which follows the chain rules (R308). -/
def State.chain (s : State) (ctx ch : Nat) : Chain :=
  if ch < 64 then tgetD (s.ctx ctx).chains ch Chain.reset else tgetD (s.ctx ctx).binners (ch - 64) Chain.reset

/-- The state with a chain or a binner's ring changed. -/
def State.updChain (s : State) (ctx ch : Nat) (f : Chain → Chain) : State :=
  s.updCtx ctx fun c =>
    if ch < 64 then { c with chains := tset c.chains ch (f (tgetD c.chains ch Chain.reset)) }
    else { c with binners := tset c.binners (ch - 64) (f (tgetD c.binners (ch - 64) Chain.reset)) }

/-- The engine-context number of a chain or a binner's ring (R267). -/
def ringEctx (ch : Nat) : Nat := if ch < 64 then ch else 0x1000 + (ch - 64)

/-- A stream. -/
def State.stream (s : State) (n : Nat) : Stream := tgetD s.streams n Stream.reset

/-- The state with a stream changed. -/
def State.updStream (s : State) (n : Nat) (f : Stream → Stream) : State :=
  { s with streams := tset s.streams n (f (s.stream n)) }

/-- A host queue. -/
def State.hostq (s : State) (n : Nat) : HostQ := tgetD s.hostqs n HostQ.reset

/-- The state with a host queue changed. -/
def State.updHostq (s : State) (n : Nat) (f : HostQ → HostQ) : State :=
  { s with hostqs := tset s.hostqs n (f (s.hostq n)) }

/-- A control core. -/
def State.ctlCore (s : State) (n : Nat) : CtlCore := tgetD s.ctl n CtlCore.reset

/-- The state with a control core changed. -/
def State.updCtl (s : State) (n : Nat) (f : CtlCore → CtlCore) : State :=
  { s with ctl := tset s.ctl n (f (s.ctlCore n)) }

/-- The state with a thread changed. -/
def State.updThread (s : State) (sid : Nat) (f : Thread → Thread) : State :=
  { s with threads := tupd s.threads sid f }

/-- The state with a team changed. -/
def State.updTeam (s : State) (t : Nat) (f : Team → Team) : State := { s with teams := tupd s.teams t f }

/-- The state with a card changed. -/
def State.updCard (s : State) (c : Nat) (f : Card → Card) : State := { s with cards := tupd s.cards c f }

/-- The state with a group changed. -/
def State.updGroup (s : State) (g : Nat) (f : Group → Group) : State := { s with groups := tupd s.groups g f }

/-- A context takes no new team and issues nothing: it is swapped out, or about to be (R277). -/
def CtxSt.away (c : CtxSt) : Bool := c.saved.isSome || c.swapping

/-- A cluster is being replaced by a spare (R377): no team is placed on it and nothing of it issues. -/
def State.replacing (s : State) (cl : Nat) : Bool :=
  s.package.svcBusy && s.package.svccmd == 2 && s.package.svcarg.toNat % 32 == cl

/-- A new number. -/
def State.bump (s : State) : State := { s with fresh := s.fresh + 1 }

/-- A new free value is used up. (DESIGN CHOICE: log 5) -/
def State.useFree (s : State) : State := { s with freeCtr := s.freeCtr + 1 }

/-- The team of a thread. -/
def State.teamOf (s : State) (sid : Nat) : Option Team := (tget s.threads sid).bind fun th => tget s.teams th.team

/-- Device time in whole nanoseconds (R322). -/
def State.ns (s : State) : Nat := s.time.now / 65536

/-- The clocks a core has run: stopped clocks do not count for ages (R357). -/
def State.coreClk (s : State) (core : Nat) : Nat := s.clk - (s.core core).stoppedFor

/-- CW of a bank (R132): the largest c such that writes 1 to c are complete. -/
def CoreSt.cw (c : CoreSt) (bank : Nat) : Nat :=
  match vget c.open' bank [] with
  | [] => vget c.iw bank 0
  | n :: _ => n - 1

/-- One write of a bank is issued (R132): its number and the state. (DEDUCED: log 35) -/
def State.issueWrite (s : State) (core bank : Nat) : State × Nat :=
  let n := vget (s.core core).iw bank 0 + 1
  (s.updCore core fun c =>
    { c with iw := vset c.iw bank n, open' := vset c.open' bank (insRise (vget c.open' bank []) n) }, n)

/-- A write of a bank is complete (R132). (DEDUCED: log 35) -/
def State.completeWrite (s : State) (core bank n : Nat) : State :=
  s.updCore core fun c => { c with open' := vset c.open' bank ((vget c.open' bank []).erase n) }

/-! ### Bytes of memory -/

/-- What a location that the list does not name reads as (log 4). -/
def unlistedByte : Byte := 0

/-- The byte at a location. (DESIGN CHOICE: log 4) -/
def memGet (m : List Host.Cell) (p : Nat) : Byte := tgetD m p unlistedByte

/-- The memory with one byte written, in canonical form. (DESIGN CHOICE: log 4) -/
def memSet (m : List Host.Cell) (p : Nat) (b : Byte) : List Host.Cell :=
  if b = unlistedByte then tdel m p else tset m p b

/-- `n` bytes from a location on. -/
def readMem (m : List Host.Cell) (p : Nat) : Nat → List Byte
  | 0 => []
  | n + 1 => memGet m p :: readMem m (p + 1) n

/-- Bytes written from a location on. -/
def writeMem (m : List Host.Cell) (p : Nat) : List Byte → List Host.Cell
  | [] => m
  | b :: r => writeMem (memSet m p b) (p + 1) r

/-- A range of locations set to zero. -/
def zeroMem (m : List Host.Cell) (p n : Nat) : List Host.Cell := m.filter fun c => c.1 < p || p + n ≤ c.1

/-- The canonical form of a memory: rising locations, and no entry equal to what an unlisted location reads as.
(DESIGN CHOICE: log 4) -/
def memWf : List Host.Cell → Bool
  | [] => true
  | (p, b) :: r => b != unlistedByte && (match r with | [] => true | (p', _) :: _ => decide (p < p')) && memWf r

/-- A number of `n` bytes read at a location. -/
def State.readNat (s : State) (p n : Nat) : Nat := leNat (readMem s.mem p n)

/-! ### Errors of words of memory (R185, R367) -/

/-- The words with an error that `n` bytes at a location touch, by number: location / 8. -/
def flawsIn (fs : Tbl Nat) (p n : Nat) : Tbl Nat := fs.filter fun f => p < 8 * f.1 + 8 && 8 * f.1 < p + n

/-- A write makes the check bits of every word good that it covers. -/
def flawsLeft (fs : Tbl Nat) (p n : Nat) : Tbl Nat := fs.filter fun f => !(p ≤ 8 * f.1 && 8 * f.1 + 8 ≤ p + n)

/-- The LP6 channel that holds a location (R365). -/
def channelOf (p : Nat) : Option Nat := if p < 2 ^ 40 then some (p / 2 ^ 36 * 4 + p / 256 % 4) else none

/-- A single-bit error is corrected and counted: in the cluster's counter (R185), or its channel's (R367).
(DESIGN CHOICE: log 65) -/
def State.correct (s : State) (p : Nat) : State :=
  let s := { s with flaws := tdel s.flaws (p / 8) }
  match sliceOf p, channelOf p with
  | some (cl, _), _ => s.updCluster cl fun c => { c with errors := c.errors + 1 }
  | none, some ch =>
    { s with package := { s.package with correctable := tset s.package.correctable ch (tgetD s.package.correctable ch 0 + 1) } }
  | none, none => s

/-- A read meets the errors of the words that it touches: one bit is corrected; an uncorrectable error of the slice, found
for the first time, is dealt with next (R185). Its bytes are free values. (DESIGN CHOICE: log 65) -/
def State.meetFlaws (s : State) (p n : Nat) : State :=
  (flawsIn s.flaws p n).foldl (fun s f =>
    if f.2 = 1 then s.correct (8 * f.1)
    else match sliceOf (8 * f.1) with
      | some (cl, off) =>
        if f.2 = 2 then { s with flaws := tset s.flaws f.1 3, agenda := .patrolScrub cl off 2 :: s.agenda } else s
      | none => s) s

/-- A word of host memory whose next access gets no completion (R364). -/
def State.silent (s : State) (p n : Nat) : Option Nat := ((flawsIn s.flaws p n).find? fun f => f.2 == 4).map Prod.fst

/-- The first word of LP6 with an uncorrectable error that `n` bytes at a location touch (R367). -/
def State.badWord (s : State) (p n : Nat) : Option Nat :=
  ((flawsIn s.flaws p n).find? fun f => f.2 == 2 && decide (8 * f.1 < 2 ^ 40)).map fun f => 8 * f.1

/-! ### Segments of the slice (R151, R152) -/

/-- A segment is live. -/
def State.segLive (s : State) (cluster seg : Nat) : Bool := (s.cluster cluster).live.contains seg

/-- A write reaches a segment: a dead one becomes live and reads zero outside the write (R152). -/
def State.wakeSeg (s : State) (cluster seg : Nat) : State :=
  let s' := if s.segLive cluster seg then s else
    { s with mem := zeroMem s.mem (sliceLoc cluster (seg * 4096)) 4096,
             flaws := flawsLeft s.flaws (sliceLoc cluster (seg * 4096)) 4096 }.updCluster cluster fun c =>
      { c with live := insRise c.live seg }
  s'.updCluster cluster fun c => { c with banks := tset c.banks (seg / 32) (true, s.clk) }

/-- A segment becomes dead; a bank without a live segment goes Off (R151). -/
def State.killSeg (s : State) (cluster seg : Nat) : State :=
  s.updCluster cluster fun c =>
    let live := c.live.erase seg
    { c with live := live, banks := if live.any (fun x => x / 32 == seg / 32) then c.banks else tdel c.banks (seg / 32) }

/-- The segments that `n` bytes at a location touch: cluster and segment. -/
def segsOf (p n : Nat) : List (Nat × Nat) :=
  match sliceOf p with
  | none => []
  | some (c, off) =>
    if n = 0 then [] else (List.range ((off + n - 1) / 4096 - off / 4096 + 1)).map fun i => (c, off / 4096 + i)

/-- Every segment that a write touches is woken. -/
def State.wakeRange (s : State) (p n : Nat) : State := (segsOf p n).foldl (fun s q => s.wakeSeg q.1 q.2) s

/-- A read wakes the banks that it touches, and counts as their use (R151). -/
def State.touchBanks (s : State) (p n : Nat) : State :=
  (segsOf p n).foldl (fun s q => if s.segLive q.1 q.2 then
    s.updCluster q.1 fun c => { c with banks := tset c.banks (q.2 / 32) (true, s.clk) } else s) s

/-- What a read does to the bytes that it touches: banks wake (R151), errors are met (R185, R367). -/
def State.noteRead (s : State) (p n : Nat) : State := (s.touchBanks p n).meetFlaws p n

/-- A read touches a dead segment (R152). -/
def State.deadRange (s : State) (p n : Nat) : Bool := (segsOf p n).any fun q => !s.segLive q.1 q.2

/-- The hit flag of a thread whose watch a write of `n` bytes at a location meets. (DEDUCED: log 66) -/
def Thread.note (th : Thread) (p n : Nat) : Thread :=
  match th.watch with
  | some w =>
    if w.ranges.any (fun q => p < q.2 && q.1 < p + n) then { th with watch := some { w with hit := true } } else th
  | none => th

/-- The threads of a context that is swapped out change. -/
def CtxSt.updSaved (c : CtxSt) (f : Tbl Thread → Tbl Thread) : CtxSt :=
  { c with saved := c.saved.map fun v => { v with threads := f v.threads } }

/-- A write of `n` bytes wakes an engine that waits for a write to a line it meets (R285). -/
def Chain.note (c : Chain) (p n : Nat) : Chain :=
  { c with line := c.line.filter fun l => !(p < l + 64 && l < p + n) }

/-- What a context's swapped-out threads and its chains see of a write. -/
def CtxSt.note (c : CtxSt) (p n : Nat) : CtxSt :=
  let c := c.updSaved fun ts => tmap ts fun _ th => th.note p n
  { c with chains := tmap c.chains fun _ h => h.note p n, binners := tmap c.binners fun _ h => h.note p n }

/-- A write of `n` bytes at a location sets the hit flag of every watch whose lines it meets, of threads that are swapped
out too (R134), and wakes the engines that wait for it (R285). (DEDUCED: log 66) -/
def State.noteWrite (s : State) (p n : Nat) : State :=
  { s with threads := tmap s.threads fun _ th => th.note p n, ctxs := tmap s.ctxs fun _ c => c.note p n }

/-- Bytes written to the register aperture: naturally aligned words of 1, 2, 4 or 8 bytes, a longer access in words of 8,
become steps of the agenda, performed next; any other write is ignored (R268). -/
def regSteps (p : Nat) (bs : List Byte) : List Instr :=
  let n := bs.length
  if n = 1 || n = 2 || n = 4 || n = 8 then
    if p % n = 0 then [.registerWrite (p - 2 ^ 44) n (wd (leNat bs))] else []
  else if n % 8 = 0 && p % 8 = 0 then
    (List.range (n / 8)).map fun i => .registerWrite (p + 8 * i - 2 ^ 44) 8 (wd (leNat ((bs.drop (8 * i)).take 8)))
  else []

/-- Bytes are written to memory: segments wake, watches are hit (R134, R152). A store to a notify word ORs its bytes
into it (R136). (DESIGN CHOICE: log 4) (DESIGN CHOICE: log 6) -/
def State.store (s : State) (p : Nat) (bs : List Byte) : State :=
  if 2 ^ 44 ≤ p then { s with agenda := regSteps p bs ++ s.agenda } else
  let s := s.wakeRange p bs.length
  let old := readMem s.mem p bs.length
  let bs := if 2 ^ 43 ≤ p ∧ p < 2 ^ 44 then (old.zip bs).map fun q => q.1 ||| q.2 else bs
  { s with mem := writeMem s.mem p bs, flaws := flawsLeft s.flaws p bs.length }.noteWrite p bs.length

/-- Bytes replaced in memory, as an atomic or a hardware queue does it: as `store`, but a notify word is replaced (R136). -/
def State.replaceMem (s : State) (p : Nat) (bs : List Byte) : State :=
  if 2 ^ 44 ≤ p then { s with agenda := regSteps p bs ++ s.agenda } else
  let s := s.wakeRange p bs.length
  { s with mem := writeMem s.mem p bs, flaws := flawsLeft s.flaws p bs.length }.noteWrite p bs.length

/-! ### Register power blocks (R28) -/

/-- The power block of word `i` of a slot: its key in its core's table. -/
def blockKey (sid : Nat) (th : Thread) (i : Nat) : Nat := sid / 64 % 64 * 12 + (th.off + 8 * i) / 4096

/-- Words of the slot of thread `th` are read or written: their power blocks are Full, and in use at this clock. -/
def State.touchSlot (s : State) (sid : Nat) (th : Thread) (ws : List Nat) : State :=
  let ks := (ws.map (blockKey sid th)).eraseDups
  s.updCore (sidCore sid) fun c => { c with power := ks.foldl (fun t k => tset t k (true, s.clk)) c.power }

/-- Words of the slot that a thread held in the state `b` are read or written. -/
def State.touchOf (s b : State) (sid : Nat) (ws : List Nat) : State :=
  match tget b.threads sid with
  | none => s
  | some th => s.touchSlot sid th ws

/-- Words of a slot are read or written. -/
def State.touch (s : State) (sid : Nat) (ws : List Nat) : State := s.touchOf s sid ws

/-- The words of a slot that a value pending under `tok` is written to (R11): places that are not dead (R27). -/
def Thread.places (th : Thread) (nreg tok : Nat) : List Nat :=
  ((th.q.toList.zipIdx.filter fun p => p.1 == .pend tok).map Prod.snd)
    ++ ((th.v.toList.zipIdx.filter fun p => p.1 == .pend tok && !th.vdead.getLsbD p.2).map fun p => 16 + p.2)
    ++ ((th.x.zipIdx.filter fun p => p.1.val == .pend tok && !p.1.dead).map fun p => 16 + nreg + p.2)

/-! ### Pending values (R15) -/

/-- A value that was pending under `tok` fills. -/
def Val.fill (tok : Nat) (w : Word) : Val → Val
  | .pend t => if t = tok then .known w else .pend t
  | v => v

/-- A thread's registers, queue and latches with a pending value filled; a register or x-file word that is dead discards
it (R27). -/
def Thread.fill (tok : Nat) (w : Word) (th : Thread) : Thread :=
  { th with
    v := Vector.ofFn fun i : Fin 32 => if th.vdead.getLsbD i then th.v[i] else th.v[i].fill tok w,
    q := th.q.map (Val.fill tok w), b0 := th.b0.map (Val.fill tok w), b1 := th.b1.map (Val.fill tok w),
    x := th.x.map (fun x => if x.dead then x else { x with val := x.val.fill tok w }),
    owed := th.owed.filter fun o => o.1 != tok }

/-- Location of entry `j` of a hardware queue (R154). -/
def queueLoc (t : Team) (q : Queue) (j : Nat) : Nat :=
  sliceLoc (t.core / 8) (t.allocOff + q.base + 8 * (j % 2 ^ q.logCap))

/-- The pending entries of one hardware queue under `tok` fill: their words are stored. -/
def State.fillQueue (s : State) (tid : Nat) (t : Team) (n tok : Nat) (w : Word) : State :=
  let q := vget t.w n { init := false, closed := false, nostamp := false, base := 0, logCap := 0, head := 0, tail := 0,
                        entries := [] }
  if q.entries.any (fun e => e.tok == some tok) then
    let s := (List.range q.entries.length).foldl (fun s i =>
      if (q.entries.getD i { stamp := 0, tok := none }).tok == some tok
      then s.replaceMem (queueLoc t q (q.head + i)) (leBytes 8 w.toNat) else s) s
    let es := q.entries.map fun e => if e.tok == some tok then { e with tok := none } else e
    s.updTeam tid fun t => { t with w := vset t.w n { q with entries := es } }
  else s

/-- The slot of an ended thread is free once nothing is owed to it (R106). -/
def State.reap (s : State) (sid : Nat) : State :=
  match tget s.threads sid with
  | some th => if th.cond = .ended ∧ th.owed.isEmpty then { s with threads := tdel s.threads sid } else s
  | none => s

/-- A value arrives: it fills every place its token has reached in its thread and its team's queues (R15, R156). -/
def State.fillTok (s : State) (sid tok : Nat) (w : Word) : State :=
  match tget s.threads sid with
  | none => s
  | some th =>
    let nreg := ((tget s.teams th.team).map fun t => t.hdr.nreg).getD 0
    let s := (s.touch sid (th.places nreg tok)).updThread sid (Thread.fill tok w)
    match tget s.teams th.team with
    | none => s.reap sid
    | some t => ((List.range 8).foldl (fun s n => s.fillQueue th.team t n tok w) s).reap sid

/-! ### Groups and bins (R141 to R147) -/

/-- Groups of a bank that hold a place in the ready set (R142). -/
def State.readyCount (s : State) (core bank : Nat) : Nat :=
  ((s.core core).rotation.filter fun g => (tget s.groups g).any fun x => x.bank == bank).length

/-- A thread leaves its group: its latches become invalid, and a group without threads ceases (R18, R141). -/
def State.leaveGroup (s : State) (sid : Nat) : State :=
  match tget s.threads sid with
  | none => s
  | some th =>
    let s := s.updThread sid fun th => { th with b0 := none, b1 := none }
    match th.cond with
    | .inGroup g =>
      match tget s.groups g with
      | none => s
      | some gr =>
        let ts := gr.threads.erase sid
        if ts.isEmpty then
          { s with groups := tdel s.groups g }.updCore gr.core fun c =>
            { c with rotation := c.rotation.erase g, parked := vset c.parked gr.bank ((vget c.parked gr.bank []).erase g),
                     holder := if c.holder == some g then none else c.holder }
        else { s with groups := tset s.groups g { gr with threads := ts } }
    | _ => s

/-- A thread leaves the bin it is filed in. -/
def State.leaveBin (s : State) (sid : Nat) : State :=
  s.updCore (sidCore sid) fun c =>
    let bins := (vget c.bins (sidBank sid) []).map fun b => { b with filed := b.filed.filter fun x => x.1 != sid }
    { c with bins := vset c.bins (sidBank sid) (bins.filter fun b => !b.filed.isEmpty) }

/-- A group is formed and enters the ready set at its tail, or is parked (R142, R148). `prio`: what its split gives it
(R101). -/
def State.newGroup (s : State) (core bank : Nat) (pc : Word) (sids : List Nat) (start prio : Nat) : State :=
  let g := s.fresh
  let s := s.bump
  let park := 512 ≤ s.readyCount core bank || !(vget (s.core core).parked bank []).isEmpty
  let s := sids.foldl (fun s sid => s.updThread sid fun th =>
    { th with cond := .inGroup g, pc := pc, b0 := none, b1 := none }) s
  let gr : Group :=
    { core := core, bank := bank, pc := pc, threads := sids, run := [], runPc := pc, window := none, delayUntil := 0,
      yielded := false, mark := 0, wasReady := false, from' := start, parked := park, prio := prio, part := none }
  { s with groups := tset s.groups g gr }.updCore core fun c =>
    if park then { c with parked := vset c.parked bank (vget c.parked bank [] ++ [g]) }
    else { c with rotation := c.rotation ++ [g] }

/-- The oldest thread of each lane of a bin, in lane order (R146). -/
def drawOf (b : Bin) : List Nat :=
  (List.range 32).filterMap fun l => (b.filed.find? fun x => sidLane x.1 == l).map Prod.fst

/-- One draw of a bin (R146): its oldest thread of each lane form a group, issuable from the next clock. -/
def State.drawBin (s : State) (core bank : Nat) (key : Word) : State :=
  match (vget (s.core core).bins bank []).find? fun b => b.key == key with
  | none => s
  | some b =>
    let ts := drawOf b
    let left := b.filed.filter fun x => !ts.contains x.1
    let s := s.updCore core fun c =>
      let bins := (vget c.bins bank []).map fun b' => if b'.key == key then { b' with filed := left } else b'
      { c with bins := vset c.bins bank (bins.filter fun b' => !b'.filed.isEmpty) }
    s.newGroup core bank key ts (s.clk + 1) 0

/-- Draws of a bin until it is empty (R147). -/
def State.drawAll (s : State) (core bank : Nat) (key : Word) : Nat → State
  | 0 => s
  | n + 1 => (s.drawBin core bank key).drawAll core bank key n

/-- The oldest filing clock of a bin. -/
def Bin.oldest (b : Bin) : Nat := ((b.filed.map Prod.snd).foldl (fun m x => min m x) (2 ^ 64))

/-- The order in which bins are drawn: oldest filing clock first, then the lower key (R145, R147). -/
def Bin.rank (b : Bin) : Nat := b.oldest * 2 ^ 64 + b.key.toNat

/-- A bank of a core may issue: it is in force and no flip is in progress, or no bank has been put in force yet.
(DESIGN CHOICE: log 17) -/
def CoreSt.bankOn (c : CoreSt) (bank : Nat) : Bool :=
  match c.flip with
  | .landing _ _ => false
  | .idle => match c.inForce with | none => true | some b => b == bank

/-- The context a core's bank is assigned to (R268). -/
def CoreSt.bankCtx (c : CoreSt) (bank : Nat) : Option Nat :=
  let b := c.bankctx.toNat / 256 ^ bank
  if b / 128 % 2 == 1 then some (b % 64) else none

/-- A capture of the context counts: it has started, and a bank of the context is flipped in (R361). -/
def State.captures (s : State) (ctx : Nat) : Bool :=
  (s.ctx ctx).capturing && (s.ctx ctx).saved.isNone
    && s.cores.any fun p => (List.range 2).any fun b => p.2.bankOn b && p.2.bankCtx b == some ctx

/-- The core is stopped: its stop cycle is over (R357). -/
def State.stopHolds (s : State) (core : Nat) : Bool :=
  (s.core core).stop.stopped && decide ((s.core core).stop.since < s.clk)

/-- Draws of a bank take place: it is not flipped out (R276), nor its core stopped (R357). -/
def State.draws (s : State) (core bank : Nat) : Bool := (s.core core).bankOn bank && !s.stopHolds core

/-- A thread is filed into the bin of its bank keyed by `key`, opening it if need be, with a forced draw when all 16
bins of the bank are in use (R144, R147). While the bank is flipped out or the core stopped no draw takes place, and the
bin opens as one more. (DESIGN CHOICE: log 16) -/
def State.fileThread (s : State) (sid : Nat) (key : Word) : State :=
  match tget s.threads sid with
  | none => s
  | some th =>
    let core := sidCore sid
    let bank := sidBank sid
    let s := s.updThread sid fun th => { th with cond := .filed, pc := key, b0 := none, b1 := none }
    let now := s.coreClk core
    let bins := vget (s.core core).bins bank []
    if bins.any (fun b => b.key == key) then
      let joined := bins.map fun b => if b.key == key then { b with filed := b.filed ++ [(sid, now)] } else b
      s.updCore core fun c => { c with bins := vset c.bins bank joined }
    else
      let hdr := (tget s.teams th.team).map Team.hdr
      let fresh : Bin :=
        { key := key, full := (hdr.map Header.fill).getD 32, age := (hdr.map Header.age).getD 512, filed := [(sid, now)] }
      let s := if bins.length < 16 || !s.draws core bank then s else
        match minBy Bin.rank bins with
        | none => s
        | some b => s.drawAll core bank b.key b.filed.length
      s.updCore core fun c => { c with bins := vset c.bins bank (vget c.bins bank [] ++ [fresh]) }

/-- A thread leaves whatever holds it: its group or its bin. -/
def State.detach (s : State) (sid : Nat) : State :=
  match (tget s.threads sid).map Thread.cond with
  | some .filed => s.leaveBin sid
  | some (.inGroup _) => s.leaveGroup sid
  | _ => s

/-- The threads of a team, in slot order. -/
def State.threadsOf (s : State) (tid : Nat) : List Nat := (s.threads.filter fun p => p.2.team == tid).map Prod.fst

/-- The blocked threads of a team whose wait a test accepts are filed under their PC (R144). -/
def State.wakeTeam (s : State) (tid : Nat) (p : Wait → Bool) : State :=
  (s.threadsOf tid).foldl (fun s sid =>
    match tget s.threads sid with
    | some th =>
      match th.cond with
      | .blocked w => if p w then s.fileThread sid th.pc else s
      | _ => s
    | none => s) s

/-- A change of hardware queue `n` wakes the threads blocked on it (R156). -/
def State.wakeQueue (s : State) (tid n : Nat) : State :=
  s.wakeTeam tid fun w => match w with
    | .queue m => m.toNat / 2 ^ n % 2 == 1
    | _ => false

/-- A thread ends (R106): it leaves whatever holds it, and its slot becomes free once nothing is owed to it. Its team's
part of the card is over with its last thread. -/
def State.endThread (s : State) (sid : Nat) : State :=
  match tget s.threads sid with
  | none => s
  | some th =>
    let s := (s.detach sid).updThread sid fun th => { th with cond := .ended, b0 := none, b1 := none, watch := none }
    let live := s.threads.any fun p => p.2.team == th.team && decide (p.2.cond ≠ .ended)
    (s.updTeam th.team fun t => { t with finished := t.finished || !live }).reap sid

/-! ### Hardware queues (R154 to R161) -/

/-- Hardware queue `n` of a team. -/
def Team.queue (t : Team) (n : Nat) : Queue :=
  vget t.w n { init := false, closed := false, nostamp := false, base := 0, logCap := 0, head := 0, tail := 0,
               entries := [] }

/-- A hardware queue before `qinit` (R154). -/
def Queue.fresh : Queue :=
  { init := false, closed := false, nostamp := false, base := 0, logCap := 0, head := 0, tail := 0, entries := [] }

/-- An entry is appended with its stamp (R156, R157): its word is stored in the ring. -/
def State.pushQueue (s : State) (tid n stamp : Nat) (v : Val) : State :=
  match tget s.teams tid with
  | none => s
  | some t =>
    let q := t.queue n
    let loc := queueLoc t q q.tail
    let s := match v with
      | .known w => s.replaceMem loc (leBytes 8 w.toNat)
      | .pend _ => s.wakeRange loc 8
    let e : QEntry := { stamp := stamp, tok := match v with | .known _ => none | .pend k => some k }
    let s := s.updTeam tid fun t =>
      { t with w := vset t.w n { q with tail := q.tail + 1, entries := q.entries ++ [e] } }
    s.wakeQueue tid n

/-- The entry at HEAD is removed (R156); a closed empty queue is left as it is. -/
def State.popQueue (s : State) (tid n : Nat) : State :=
  match tget s.teams tid with
  | none => s
  | some t =>
    let q := t.queue n
    match q.entries with
    | [] => s
    | _ :: r => ((s.noteRead (queueLoc t q q.head) 8).updTeam tid fun t => { t with w := vset t.w n { q with head := q.head + 1, entries := r } }).wakeQueue tid n

/-! ### Priorities -/

/-- The priority of a thread: its card's (R141). -/
def State.prioOf (s : State) (sid : Nat) : Nat :=
  ((s.teamOf sid).bind fun t => (tget s.cards t.card).map Card.prio).getD 0

/-- The priority of a group: the highest of its threads (R141), and for one formed by a split not less than that of the
group that split (R101). -/
def State.groupPrio (s : State) (g : Group) : Nat := g.threads.foldl (fun m sid => max m (s.prioOf sid)) g.prio

/-! ### Taking an exception (R110 to R112) -/

/-- A freeze-class fault. -/
def freezeFault (code : BitVec 5) (addr : Word) (extra : Nat) : FaultInfo :=
  { code := code, cls := .freeze, addr := addr, extra := extra, replay := false }

/-- A halt-class fault of a page: REPLAY is set (R112). -/
def pageFault (code : BitVec 5) (addr : Word) : FaultInfo :=
  { code := code, cls := .halt .page, addr := addr, extra := 0, replay := true }

/-- UNCORRECTABLE of a word that a thread's access has read (R367). (DESIGN CHOICE: log 65) -/
def flawFault (pa : Nat) : FaultInfo := { code := 0x19, cls := .kill, addr := wd pa, extra := 0, replay := false }

/-- FABRIC_TIMEOUT (R364, R381). -/
def fabricTimeout (va : Word) : FaultInfo := freezeFault 0x1A va 0

/-- ILLEGAL_OPCODE (R112): EXTRA is the step of R44, 1. -/
def illegalOpcode : FaultInfo := freezeFault 0x01 0 1

/-- ILLEGAL_OPERAND (R112): position and selector or code. -/
def illegalOperand (pos sel : Nat) : FaultInfo := freezeFault 0x02 0 (pos + 4 * sel)

/-- DEAD_REGISTER (R112). -/
def deadRegister (pos sel : Nat) : FaultInfo := freezeFault 0x04 0 (pos + 4 * sel)

/-- LATCH_WINDOW (R20). -/
def latchWindow : FaultInfo := freezeFault 0x05 0 0

/-- X_BOUNDS (R24): ADDR is the index. -/
def xBounds (ix : Word) : FaultInfo := freezeFault 0x06 ix 0

/-- SHARED_BOUNDS. -/
def sharedBounds (a : Word) : FaultInfo := freezeFault 0x07 a 0

/-- CLUSTER_OWNER. -/
def clusterOwner (a : Word) : FaultInfo := freezeFault 0x08 a 0

/-- BANK_OFF. -/
def bankOff (a : Word) : FaultInfo := freezeFault 0x09 a 0

/-- ALIGNMENT. -/
def misaligned (a : Word) : FaultInfo := freezeFault 0x0A a 0

/-- PROTECTION. -/
def protection (a : Word) : FaultInfo := freezeFault 0x0D a 0

/-- Where a record stands among those raised on its clock: cluster, core, lane; engine records after those of threads
(R271). -/
def TrapRec.rank (r : TrapRec) : Nat :=
  match r.owner with
  | some sid => sidCore sid * 32 + sidLane sid
  | none => 2 ^ 16

/-- A record joins the waiting ones: after every one of an earlier clock, by rank within its own. (DEDUCED: log 19) -/
def insertRec (r : TrapRec) : List TrapRec → List TrapRec
  | [] => [r]
  | q :: t => if r.clk = q.clk ∧ r.rank < q.rank then r :: q :: t else q :: insertRec r t

/-- A record is raised: it joins the context's records in the order raised (R271). -/
def State.postRecord (s : State) (r : TrapRec) : State :=
  s.updCtx r.ctx fun c => { c with waiting := insertRec { r with clk := s.clk } c.waiting }

/-- The card id of a team (R23). -/
def State.cardId (s : State) (t : Team) : BitVec 32 :=
  ((tget s.cards t.card).map fun c => (wordAt c.words 0).setWidth 32).getD 0

/-- A team is frozen (R112, R272): its threads leave their groups and bins and issue nothing; its card has FAULTED. -/
def State.freezeTeam (s : State) (tid : Nat) : State :=
  match tget s.teams tid with
  | none => s
  | some t =>
    let s := (s.threadsOf tid).foldl (fun s sid =>
      (s.detach sid).updThread sid fun th =>
        { th with cond := if th.cond = .ended then .ended else .frozen, b0 := none, b1 := none }) s
    let s := s.updTeam tid fun t => { t with frozen := true, failed := true }
    let s := s.updCtx t.ctx fun c => c.updSaved fun ts => tmap ts fun _ th =>
      if th.team = tid then { th with cond := if th.cond = .ended then .ended else .frozen } else th
    s.updCard t.card fun c => { c with out := { c.out with faulted := true } }

/-- The record of a thread's fault (R111). -/
def State.threadRecord (s : State) (sid : Nat) (f : FaultInfo) (pc : Word) (exited : Bool) : Option TrapRec :=
  match tget s.threads sid with
  | none => none
  | some th => (tget s.teams th.team).map fun t =>
    { card := s.cardId t, extra := BitVec.ofNat 14 f.extra, ctx := t.ctx, cluster := sidCluster sid,
      core := sidCore sid % 8, bank := sidBank sid, exited := exited, replay := f.replay,
      fatal := decide (f.cls = .freeze), wid := th.wid, code := f.code, pc := pc &&& 0x00FFFFFFFFFFFFFC#64, addr := f.addr,
      owner := some sid, engine := none, clk := s.clk }

/-- TAKING AN EXCEPTION (R110): the thread leaves its group with its latches invalid, its saved PC becomes `saved` (the
instruction, the first word of its hint run, or for `trap` and `bkpt` the next PC), a record carrying the consumer's
`pc` is raised, and the thread halts or its team freezes as the fault's class says (R112). Where an uncorrectable error is
to kill the team, that follows, with its record (R367). -/
def State.raise (s : State) (sid : Nat) (f : FaultInfo) (pc saved : Word) : State :=
  match tget s.threads sid with
  | none => s
  | some th =>
    let rec' := s.threadRecord sid f pc false
    let wasFrozen := (tget s.teams th.team).any Team.frozen
    let stop := fun s : State => fun c : Cond => (s.detach sid).updThread sid fun th =>
      { th with pc := saved, b0 := none, b1 := none, cond := c }
    let s := match f.cls with
      | .freeze => (stop s .frozen).freezeTeam th.team
      | .halt h => stop s (if wasFrozen then .frozen else .halted h)
      | .note => s
      | .kill => (stop s .frozen).updTeam th.team fun t => { t with lost := t.lost.or (some f.addr) }
    match if f.cls = .kill then none else rec' with
    | none => s
    | some r => s.postRecord r

/-- Faults of one issue, in increasing lane order (R112). -/
def State.raiseAll (s : State) (pc : Word) : List (Nat × FaultInfo × Word) → State
  | [] => s
  | (sid, f, saved) :: r => (s.raise sid f pc saved).raiseAll pc r

/-! ### Returning from an exception (R273) -/

/-- The record a halted thread stands for still waits to be posted (R271). -/
def CtxSt.holds (c : CtxSt) (sid : Nat) : Bool := c.waiting.any fun r => r.owner == some sid

/-- REPLAY for threads: every thread of the context halted by a page fault whose record is posted is filed under its
saved PC and reissues. -/
def State.replayThreads (s : State) (ctx : Nat) : State :=
  (s.threads.map Prod.fst).foldl (fun s sid =>
    match tget s.threads sid, s.teamOf sid with
    | some th, some t =>
      if t.ctx = ctx && th.cond = .halted .page && !(s.ctx ctx).holds sid then s.fileThread sid th.pc else s
    | _, _ => s) s

/-- A thread halted by SOFT_TRAP or BREAKPOINT, of an open card with that id and that WID. -/
def State.resumable (s : State) (ctx : Nat) (card : BitVec 32) (wid : Word) (sid : Nat) : Bool :=
  match tget s.threads sid, s.teamOf sid with
  | some th, some t =>
    decide (t.ctx = ctx) && decide (s.cardId t = card) && decide (th.wid = wid)
      && (decide (th.cond = .halted .softTrap) || decide (th.cond = .halted .breakpoint)) && !(s.ctx ctx).holds sid
  | _, _ => false

/-- A thread of a context that is swapped out, halted by SOFT_TRAP or BREAKPOINT, of that card and WID. -/
def State.resumableOut (s : State) (ctx : Nat) (card : BitVec 32) (wid : Word) (p : Nat × Thread) : Bool :=
  ((tget s.teams p.2.team).any fun t => s.cardId t == card) && decide (p.2.wid = wid)
    && (decide (p.2.cond = .halted .softTrap) || decide (p.2.cond = .halted .breakpoint)) && !(s.ctx ctx).holds p.1

/-- RESUME: the halted threads of that card and WID continue at their resume PC, one that is swapped out after its
restore; with none, REJ is set. -/
def State.resumeThreads (s : State) (ctx : Nat) (card : BitVec 32) (wid : Word) : State :=
  let ts := (s.threads.map Prod.fst).filter (s.resumable ctx card wid)
  let out := ((s.ctx ctx).saved.map fun v => v.threads.filter (s.resumableOut ctx card wid)).getD []
  let s := s.updCtx ctx fun c => c.updSaved fun v => tmap v fun i th =>
    if out.any (fun p => p.1 == i) then { th with cond := .filed } else th
  if ts.isEmpty && out.isEmpty then s.updCtx ctx fun c => { c with rej := true }
  else ts.foldl (fun s sid => match tget s.threads sid with | some th => s.fileThread sid th.pc | none => s) s

end Sys2Proof.Machine
end

