-- ==== Sys2Proof/Machine/Aperture.lean ====
section
/-! DEFINITION. Reading registers: the system registers of R265 as `sysr` sees them, and the register aperture of R268
with the blocks of R280, R320, R323, R326, R344, R352, R354, R356, R360 to R362, R366, R368, R369, R377, R378. -/

namespace Sys2Proof.Machine

/-- A bit at a place in a register. -/
def flag (b : Bool) (i : Nat) : Nat := if b then 2 ^ i else 0

/-- CTXCFG (R265). -/
def CtxSt.ctxcfg (c : CtxSt) : Word := wd (c.slice % 65536 * 65536 + c.maxprio % 16 * 16 + flag c.priv 0)

/-- CTXSTAT (R265, R271). -/
def CtxSt.ctxstat (c : CtxSt) : Word :=
  wd (flag c.rej 3 + flag (!c.waiting.isEmpty) 2 + flag c.frozen 1 + flag c.tqovf 0)

/-- A context's registers of R265 by number, as its block of the aperture shows them: cluster and core registers read
zero there (R268), and SELF, with no issuing core, names a free one. (DESIGN CHOICE: log 59) -/
def State.ctxReg (s : State) (ctx n : Nat) : Word :=
  let c := s.ctx ctx
  match n with
  | 0x00 => wd s.ns
  | 0x01 => wd (s.fabric.pod.toNat * 32768 + ctx % 64 * 512 + (Config.selfPlace ctx).toNat)
  | 0x02 => c.ctxcfg
  | 0x03 => c.locbase
  | 0x04 => c.shrbase
  | 0x05 => c.clubase
  | 0x06 => wd c.locsz
  | 0x07 => c.locpool
  | 0x08 => c.ptroot
  | 0x09 => c.tqbase
  | 0x0A => c.tqhead.setWidth 64
  | 0x0B => c.tqtail.setWidth 64
  | 0x0C => c.ctxstat
  | 0x12 => c.part.setWidth 64
  | 0x13 => c.csave
  | _ => 0

/-- The shading-rate level of a team's act (R265, R339): 0 outside acts. -/
def State.srate (s : State) (t : Team) : Word :=
  match t.act with
  | none => 0
  | some a => if a.output then 0 else (s.stream a.stream).level.setWidth 64

/-- A system register by number as a thread reads it (R265). -/
def State.sysReg (s : State) (sid : Nat) (t : Team) (n : Nat) : Word :=
  match n with
  | 0x01 => wd (s.fabric.pod.toNat * 32768 + t.ctx * 512 + sidBank sid * 256 + sidCore sid % 8 * 32 + sidCluster sid)
  | 0x0D => tgetD (s.cluster (sidCluster sid)).cpbase t.ctx 0
  | 0x0E => wd (tgetD (s.cluster (sidCluster sid)).cpn t.ctx 0)
  | 0x0F => wd (s.core (sidCore sid)).dqsplit
  | 0x10 => wd (flag (s.cluster (sidCluster sid)).ownrej 0)
  | 0x11 => s.srate t
  | _ => s.ctxReg t.ctx n

/-- The footprint of a thread of a kernel, in bytes (R11). -/
def footprint (h : Header) : Nat := ceilDiv (8 * (16 + h.nreg + h.xsize)) 64 * 64

/-- The value of a register that a debug read sees; a pending one gives a free value. (DESIGN CHOICE: log 56) -/
def Val.seen : Val → Word
  | .known w => w
  | .pend tok => Config.pendingWord tok

/-- Word `i` of a slot's bytes (R11): the result queue, then the named registers, then the x-file. -/
def Thread.slotWord (th : Thread) (h : Header) (i : Nat) : Word :=
  if i < 16 then (vget th.q i (.known 0)).seen
  else if i < 16 + h.nreg then (vget th.v (i - 16) (.known 0)).seen
  else match th.x[i - 16 - h.nreg]? with
    | some x => x.val.seen
    | none => 0

/-- A power block holds live state (R28): a result queue, a live named register or x-file word of a resident thread. -/
def State.blockLive (s : State) (core bank lane block : Nat) : Bool :=
  s.threads.any fun p =>
    sidCore p.1 == core && sidBank p.1 == bank && sidLane p.1 == lane &&
      let n := ((tget s.teams p.2.team).map fun t => t.hdr.nreg).getD 0
      let live := List.range 16 ++ ((List.range n).filter fun i => !p.2.vdead.getLsbD i).map (16 + ·)
        ++ ((p.2.x.zipIdx.filter fun x => !x.1.dead).map fun x => 16 + n + x.2)
      live.any fun i => (p.2.off + 8 * i) / 4096 == block

/-- DBGDATA (R359). A word outside every slot is what the bank was left with, a free value. (DESIGN CHOICE: log 56) -/
def State.dbgData (s : State) (core : Nat) : Word :=
  let c := s.core core
  let a := c.stop.dbgaddr
  let ix := bits a 12 0
  let bank := bits a 19 19
  let lane := bits a 18 14
  if ix > 6143 then 0 else
    match s.threads.find? fun p =>
      sidCore p.1 == core && sidBank p.1 == bank && sidLane p.1 == lane && p.2.off ≤ 8 * ix &&
        8 * ix < p.2.off + ((tget s.teams p.2.team).map fun t => footprint t.hdr).getD 0 with
    | none => if c.stop.stopped && s.blockLive core bank lane (ix / 512) then Config.bankWord s.clk a.toNat else 0
    | some (_, th) =>
      match tget s.teams th.team with
      | none => 0
      | some t =>
        let open' := c.stop.stopped || t.frozen || (match th.cond with | .halted _ => true | .frozen => true | _ => false)
        let on := s.blockLive core bank lane (ix / 512)
        if open' && on then th.slotWord t.hdr ((8 * ix - th.off) / 8) else 0

/-- Word `i` of a chain's or ring's register block (R280). (DEDUCED: log 63) -/
def Chain.reg (c : Chain) (i : Nat) : Word :=
  match i with
  | 0 => wd (c.base.toNat / 4096 * 4096 + c.len % 64 * 64 + c.cluster % 32 * 2 + flag c.en 0)
  | 1 => c.tail
  | 2 => c.done
  | 3 => wd (flag c.frozen 4 + flag c.stall 3 + flag c.waitseq 2 + flag (c.written && decide (c.tail.toNat < c.next.toNat)) 1
      + flag c.draining 0)
  | _ => 0

/-- Word `i` of a stream's control block (R326). -/
def Stream.reg (t : Stream) (i : Nat) : Word :=
  match i with
  | 0 => t.srec
  | 2 => wd (t.frame.toNat * 2 ^ 32 + t.strip.toNat * 65536 + t.level.toNat * 256 + t.rej % 16 * 16 + t.state % 4)
  | 3 => t.misses
  | 4 => t.raises
  | 5 => t.firstf
  | _ => 0

/-- Word `i` of the time-sync block (R323). -/
def TimeSt.reg (t : TimeSt) (i : Nat) : Word :=
  match i with
  | 0 => wd (t.now / 65536)
  | 1 => t.fracLatch.setWidth 64
  | 2 => t.rateadj.setWidth 64
  | 3 => t.toffset
  | 4 => wd (t.domain.toNat * 65536 + flag t.en 5 + t.port.toNat)
  | 5 => wd (flag t.stepped 4 + flag t.alarm 3 + t.state % 8)
  | _ => 0

/-- Word `i` of a host queue's block (R344). (DEDUCED: log 63) -/
def HostQ.reg (q : HostQ) (i : Nat) : Word :=
  match i with
  | 0 => wd (q.rbase.toNat / 4096 * 4096 + q.ctx % 64 * 64 + q.qprio % 16 * 4 + flag q.logn8 1 + flag q.en 0)
  | 1 => q.kick
  | 2 => q.done
  | 3 => wd (q.fcode % 256 * 256 + flag q.stopped 1 + flag (q.written && decide (q.done = q.kick)) 0)
  | _ => 0

/-- Word `i` of a trace unit's block (R354). -/
def Trace.reg (t : Trace) (i : Nat) : Word :=
  match i with
  | 0 => wd (t.tbase.toNat / 4096 * 4096 + t.tlog % 32 * 2 + flag t.en 0)
  | 1 => t.twr
  | 2 => t.trd
  | 3 => t.tlost
  | _ => 0

/-- Word `i` of a core's stop block (R356). -/
def State.stopReg (s : State) (core i : Nat) : Word :=
  let b := (s.core core).stop
  match i with
  | 0 => wd (b.dbase.toNat / 4096 * 4096 + flag b.enb 3 + flag b.ena 2)
  | 1 => wd (flag b.dumped 1 + flag b.stopped 0)
  | 2 => b.dbgaddr
  | 3 => s.dbgData core
  | _ => 0

/-- Energy that events have charged to an accumulator: 0 die, 1 module, 2 + i cluster i, 32 + c context c. -/
def State.charged (s : State) (a : Nat) : Word :=
  if a = 0 then s.package.energyDie else if a = 1 then s.package.energyModule
  else if a < 26 then tgetD s.package.energyCluster (a - 2) 0
  else if 32 ≤ a then (s.ctx (a - 32)).energy else 0

/-- An energy accumulator (R362): what has been charged to it and what the hardware has measured, a free value.
(DESIGN CHOICE: log 55) -/
def State.energy (s : State) (a : Nat) : Word := s.charged a + wd (Config.energyAt s.clk a)

/-- The accumulator whose word holds an offset of the aperture (R362). -/
def accAt (o : Nat) : Option Nat :=
  if 0xC09000 ≤ o ∧ o < 0xC090D0 then some ((o - 0xC09000) / 8)
  else if o < 0x40000 ∧ 0x820 ≤ o % 0x1000 ∧ o % 0x1000 < 0x828 then some (32 + o / 0x1000) else none

/-- The low half of an accumulator is read: its high half is latched. (DESIGN CHOICE: log 55) -/
def State.latchEnergy (s : State) (a : Nat) : State :=
  { s with package := { s.package with
      energyLatch := tset s.package.energyLatch a (BitVec.ofNat 32 ((s.energy a).toNat / 2 ^ 32)) } }

/-- Word `i` of the power block (R369). -/
def State.powerReg (s : State) (i : Nat) : Word :=
  match i with
  | 0 => s.package.modlimit.setWidth 64
  | 1 => s.package.slope.setWidth 64
  | 2 => s.package.icrit.setWidth 64
  | 3 => s.package.racklimit.setWidth 64
  | 4 => s.package.kills
  | _ =>
    if 8 ≤ i ∧ i < 32 then
      let c := s.cluster (i - 8)
      wd (c.grant % 4096 * 65536 + c.bias % 4 * 16384 + flag c.floor 13 + c.fmhz % 4096)
    else 0

/-- Word `n` of the fabric block (R378). -/
def Fabric.reg (f : Fabric) (n : Nat) : Word :=
  if n = 0 then f.pod.setWidth 64
  else if n = 1 then f.fto.setWidth 64
  else if 0x20 ≤ n ∧ n < 0x20 + 36 then
    if n % 2 = 0 then (tgetD f.peer ((n - 0x20) / 2) 0).setWidth 64
    else wd (flag (f.retrain.contains ((n - 0x20) / 2)) 1 + flag (f.up.contains ((n - 0x20) / 2)) 0)
  else if 0x201 ≤ n ∧ n ≤ 0x2FE then (tgetD f.routes (n - 0x200) 0).setWidth 64
  else if 0x400 ≤ n ∧ n < 0x500 then (tgetD f.ingress (n - 0x400) 0).setWidth 64
  else 0

/-- A context's block (R268, R361, R362, R378). -/
def State.ctxBlock (s : State) (ctx o : Nat) : Word :=
  if o < 0xA0 then s.ctxReg ctx (o / 8)
  else match o with
    | 0x800 => (s.ctx ctx).cmd
    | 0x808 => (s.ctx ctx).cmdarg
    | 0x818 => (s.ctx ctx).capaddr
    | 0x820 => s.energy (32 + ctx)
    | 0x828 => (s.ctx ctx).podgid.setWidth 64
    | _ => 0

/-- A cluster's block, and its cores' (R268). -/
def State.clusterBlock (s : State) (cl o : Nat) : Word :=
  if o < 0x400 then
    wd ((List.range 4).foldl (fun a i => a + (tgetD (s.cluster cl).owner (o / 2 + i) 0).toNat * 2 ^ (16 * i)) 0)
  else if o < 0x800 then
    if o % 16 = 0 then tgetD (s.cluster cl).cpbase ((o - 0x400) / 16) 0
    else wd (tgetD (s.cluster cl).cpn ((o - 0x400) / 16) 0)
  else if o = 0x800 then wd (flag (s.cluster cl).ownrej 0)
  else if 0x8000 ≤ o ∧ o < 0x8800 then
    match o % 0x100 with
    | 0 => (s.core (cl * 8 + (o - 0x8000) / 0x100)).bankctx.setWidth 64
    | 8 => wd (s.core (cl * 8 + (o - 0x8000) / 0x100)).dqsplit
    | _ => 0
  else 0

/-- The 64-bit word at an aligned offset of the register aperture (R268); an offset that no block holds reads zero, but
for the certificate, behind the package's blocks (R376). (DESIGN CHOICE: log 53) (DESIGN CHOICE: log 59) -/
def State.regWord (s : State) (o : Nat) : Word :=
  if o < 0x40000 then s.ctxBlock (o / 0x1000) (o % 0x1000)
  else if 0x400000 ≤ o ∧ o < 0x400000 + 24 * 0x10000 then
    s.clusterBlock ((o - 0x400000) / 0x10000) ((o - 0x400000) % 0x10000)
  else if 0x800000 ≤ o ∧ o < 0x840000 then
    let c := (o - 0x800000) / 0x1000
    if o % 0x1000 < 0x800 then (s.chain c (o % 0x1000 / 32)).reg (o % 32 / 8) else 0
  else if 0x840000 ≤ o ∧ o < 0x880000 then
    let c := (o - 0x840000) / 0x1000
    if o % 0x1000 < 0x80 then (s.chain c (64 + o % 0x1000 / 32)).reg (o % 32 / 8) else 0
  else if 0x900000 ≤ o ∧ o < 0x900800 then
    let t := s.stream ((o - 0x900000) / 32)
    match o % 32 / 8 with | 0 => t.bsrd | 1 => t.bswr | 2 => t.frames | _ => 0
  else if 0x901000 ≤ o ∧ o < 0x902000 then (s.stream ((o - 0x901000) / 64)).reg (o % 64 / 8)
  else if 0xA00000 ≤ o ∧ o < 0xA00030 then s.time.reg ((o - 0xA00000) / 8)
  else if 0xB00000 ≤ o ∧ o < 0xB02000 then (s.hostq ((o - 0xB00000) / 32)).reg (o % 32 / 8)
  else if o = 0xB02000 then wd (s.journal.jbase.toNat / 4096 % 2048 * 4096 + s.journal.jlog % 16)
  else if o = 0xB02008 then s.journal.jseq
  else if 0xC00000 ≤ o ∧ o < 0xC00000 + 24 * 0x100 then
    if o % 0x100 < 32 then (s.cluster ((o - 0xC00000) / 0x100)).trace.reg (o % 0x100 / 8) else 0
  else if 0xC08000 ≤ o ∧ o < 0xC08020 then
    match (o - 0xC08000) / 8 with
    | 0 => wd (s.series.sbase.toNat / 4096 * 4096 + s.series.slog % 16 * 256 + s.series.k % 32 * 8 + flag s.series.en 0)
    | 1 => s.series.swr
    | 2 => s.series.srd
    | _ => s.series.slost
  else if 0xC09000 ≤ o ∧ o < 0xC090D0 then s.energy ((o - 0xC09000) / 8)
  else if 0xC20000 ≤ o ∧ o < 0xC2C000 then
    if o % 0x100 < 32 then s.stopReg ((o - 0xC20000) / 0x100) (o % 0x100 / 8) else 0
  else if 0xD00000 ≤ o ∧ o < 0xD00100 then s.powerReg ((o - 0xD00000) / 8)
  else if 0xD10000 ≤ o ∧ o < 0xD10080 then tgetD s.package.grpown ((o - 0xD10000) / 8) 0xFFFFFFFFFFFFFFFF#64
  else if 0xD20000 ≤ o ∧ o < 0xD20010 then (tgetD s.package.dpstat ((o - 0xD20000) / 8) 0).setWidth 64
  else if o = 0xD30000 then s.package.svccmd
  else if o = 0xD30008 then s.package.svcarg
  else if o = 0xD30010 then s.package.svcstat
  else if 0xE00000 ≤ o ∧ o < 0xE02800 then s.fabric.reg ((o - 0xE00000) / 8)
  else if 0xD40000 ≤ o ∧ o < 0xE00000 then (Config.certificate o).getD 0
  else 0

/-- An access of the aperture is naturally aligned and of 1, 2, 4 or 8 bytes (R268). -/
def regAligned (o n : Nat) : Bool := (n == 1 || n == 2 || n == 4 || n == 8) && o % n == 0

/-- A read of the aperture (R268): one that is not naturally aligned reads zero. The high half of an energy accumulator
reads its latch (R362). -/
def State.regRead (s : State) (o n : Nat) : Nat :=
  if !regAligned o n then 0
  else
    match accAt o with
    | some a => if n = 4 ∧ o % 8 = 4 then (tgetD s.package.energyLatch a 0).toNat
      else (s.regWord (o / 8 * 8)).toNat / 2 ^ (8 * (o % 8)) % 2 ^ (8 * n)
    | none => (s.regWord (o / 8 * 8)).toNat / 2 ^ (8 * (o % 8)) % 2 ^ (8 * n)

/-- What a read of the aperture does besides (R323, R362): TIMENS latches the fraction, a low half of an accumulator
latches its high half. -/
def State.regReadEffect (s : State) (o n : Nat) : State :=
  if !regAligned o n then s
  else if o / 8 * 8 = 0xA00000 then { s with time := { s.time with fracLatch := BitVec.ofNat 16 s.time.now } }
  else
    match accAt o with
    | some a => if n = 4 ∧ o % 8 = 0 then s.latchEnergy a else s
    | none => s

/-- Bytes read from the aperture: a longer access in words of 8 (R268). -/
def State.regBytes (s : State) (o n : Nat) : List Byte :=
  if 8 < n && n % 8 = 0 && o % 8 = 0 then (List.range (n / 8)).flatMap fun i => leBytes 8 (s.regRead (o + 8 * i) 8)
  else leBytes n (s.regRead o n)

/-- Bytes at a location: memory, or registers. -/
def State.readLoc (s : State) (p n : Nat) : List Byte :=
  if 2 ^ 44 ≤ p then s.regBytes (p - 2 ^ 44) n else readMem s.mem p n

/-- The byte that a store puts at a location, by its parts and bytes. -/
def storedAt : List Piece → List Byte → Nat → Option Byte
  | [], _, _ => none
  | p :: r, bs, x =>
    if p.mapped && decide (p.path ≠ .remote) && p.place ≤ x && x < p.place + p.len then bs[x - p.place]?
    else storedAt r (bs.drop p.len) x

/-- The byte that a store in flight puts at a location, if it made the segment live at its issue. -/
def MemOp.wokenByte (o : MemOp) (x : Nat) : Option Byte :=
  match o.act with
  | .store bs => if o.woke then storedAt o.pieces bs x else none
  | _ => none

/-- What a read by an engine or a die unit finds at a location: in a segment that a store in flight has made live, the bytes
of the store, whose wake the read waits out (R152). -/
def State.readWoken (s : State) (p n : Nat) : List Byte :=
  if s.ops.any fun o => o.2.woke then
    (s.readLoc p n).zipIdx.map fun b => s.ops.foldl (fun x o => (o.2.wokenByte (p + b.2)).getD x) b.1
  else s.readLoc p n

end Sys2Proof.Machine
end

