-- ==== Sys2Proof/Machine/Translate.lean ====
section
/-! DEFINITION. Address spaces and translation: windows (R114), page tables (R258 to R260), TLBs (R261, R262), the
ownership map (R170), and the check of one access of a thread (R120, R121). -/

namespace Sys2Proof.Machine

/-! ### Stream geometry that ownership needs (R301 to R303) -/

/-- Output width OW. -/
def odOW (d : List Word) : Nat := bits (wordAt d 0) 63 48

/-- Output height OH. -/
def odOH (d : List Word) : Nat := bits (wordAt d 0) 47 32

/-- Strip height H. -/
def odH (d : List Word) : Nat := 16 * 2 ^ bits (wordAt d 0) 31 30

/-- Render scale c. -/
def odC (d : List Word) : Nat := if bitAt (wordAt d 0) 29 then 2 else 1

/-- Halo lines HL. -/
def odHL (d : List Word) : Nat := bits (wordAt d 0) 19 16

/-- Logical cluster that renders. -/
def odCluster (d : List Word) : Nat := bits (wordAt d 0) 7 3

/-- Output ring format OFMT. -/
def odOFMT (d : List Word) : Nat := bits (wordAt d 0) 21 20

/-- Strips of a frame, NS. -/
def odNS (d : List Word) : Nat := ceilDiv (odOH d) (odH d)

/-- Bytes of one render slot (R303). -/
def odRenderSlot (d : List Word) : Nat := (2 * odHL d + odH d / odC d) * (odOW d / odC d) * 8

/-- Bytes of one output slot (R303). -/
def odOutputSlot (d : List Word) : Nat :=
  match odOFMT d with
  | 0 => odH d * odOW d * 3
  | 1 => odH d * odOW d * 3 / 2
  | _ => odH d * odOW d * 4

/-- Slice offset and size of the render ring. -/
def odRenderRing (d : List Word) : Nat × Nat :=
  (bits (wordAt d 1) 56 32, bits (wordAt d 0) 15 12 * odRenderSlot d)

/-- Slice offset and size of the output ring. -/
def odOutputRing (d : List Word) : Nat × Nat :=
  (bits (wordAt d 1) 24 0, bits (wordAt d 0) 11 8 * odOutputSlot d)

/-- Width of the render raster. -/
def odRW (d : List Word) : Nat := odOW d / odC d

/-- Lines of a render strip. -/
def odRH (d : List Word) : Nat := odH d / odC d

/-- Location of render pixel (x, y) of strip `g` of a stream, by running number; line y counts from the top halo. -/
def odPixel (d : List Word) (g x y : Nat) : Nat :=
  let slot := g % bits (wordAt d 0) 15 12
  sliceLoc (odCluster d) (((odRenderRing d).1 + slot * odRenderSlot d + (y * odRW d + x) * 8) % 2 ^ 25)

/-- The running number of a strip (R303). -/
def odRunning (d : List Word) (frame strip : Nat) : Nat := frame * odNS d + strip

/-- Two ranges of bytes share a byte. -/
def rangesMeet (a n b m : Nat) : Bool := a < b + m && b < a + n && 0 < n && 0 < m

/-- A stream that is admitted or stopping holds part of a ring in granule `g` of a cluster. -/
def Stream.holdsGranule (st : Stream) (cluster g : Nat) : Bool :=
  st.state != 0 && odCluster st.odesc == cluster &&
    (rangesMeet (odRenderRing st.odesc).1 (odRenderRing st.odesc).2 (g * 65536) 65536
      || rangesMeet (odOutputRing st.odesc).1 (odOutputRing st.odesc).2 (g * 65536) 65536)

/-- Context `ctx` owns the granule that holds slice offset `off` (R170). -/
def State.owns (s : State) (ctx cluster off : Nat) : Bool :=
  let e := tgetD (s.cluster cluster).owner (off / 65536) 0
  match e.toNat / 16384 with
  | 1 => e.toNat % 64 == ctx
  | 2 => s.streams.any fun p => p.2.ctx == ctx && p.2.holdsGranule cluster (off / 65536)
  | _ => false

/-! ### Windows (R114) -/

/-- A window of a context. -/
inductive Window where
  | loc
  | shared
  | cluster
deriving DecidableEq, Repr

/-- The window that an address lies in, and its offset there; LOCAL comes before SHARED before CLUSTER (R114, R115). -/
def CtxSt.window (c : CtxSt) (a : Word) : Option (Window × Nat) :=
  if a.toNat / 2 ^ 56 ≠ 0 then none
  else if a.toNat / 2 ^ 32 = c.locbase.toNat / 2 ^ 32 then some (.loc, a.toNat % 2 ^ 32)
  else if a.toNat / 2 ^ 32 = c.shrbase.toNat / 2 ^ 32 then some (.shared, a.toNat % 2 ^ 32)
  else if a.toNat / 2 ^ 32 = c.clubase.toNat / 2 ^ 32 then some (.cluster, a.toNat % 2 ^ 32)
  else none

/-! ### Page tables (R258 to R260, R366) -/

/-- What a translation needs of the page. -/
structure Need where
  read : Bool
  write : Bool
  exec : Bool
  eng : Bool
deriving DecidableEq, Repr

/-- The answer of a translation. -/
inductive Tr where
  | ok (place : Nat) (kind : Kind) (log : Nat) (pte : Word)
  | unmapped (k : Kind)
  /-- the page, of that kind, is malformed or lacks the permission -/
  | prot (k : Kind)
  /-- the page, of that kind, lies in a granule that the context does not own -/
  | owner (k : Kind)
  /-- a word of the tables, at that physical address, has an uncorrectable error (R367) -/
  | flaw (pa : Nat)
deriving DecidableEq, Repr

/-- The kind field of a PTE; 11 is SO in an unmapped entry (R260). -/
def pteKind (w : Word) : Kind :=
  match bits w 3 2 with
  | 0 => .rc
  | 2 => .uo
  | _ => .so

/-- The frame of a PTE, as a physical address. -/
def pteFrame (w : Word) : Nat := bits w 55 12 * 4096

/-- The first location outside a target's range (R259). -/
def targetEnd : Nat → Nat
  | 0 => 2 ^ 40
  | 1 => 24 * 2 ^ 25
  | 2 => 2 ^ 23
  | 3 => 2 ^ 18
  | 4 => 2 ^ 24
  | _ => 0

/-- Group of LP6 that holds a physical address admits the context (R366). -/
def State.groupAdmits (s : State) (pa ctx : Nat) : Bool :=
  bitAt (tgetD s.package.grpown (pa / 2 ^ 36) 0xFFFFFFFFFFFFFFFF#64) ctx

/-- A valid page entry of `log` bits is malformed (R260, R366). -/
def State.pteBad (s : State) (ctx : Nat) (w : Word) (log : Nat) : Bool :=
  bits w 63 56 != 0 || bits w 3 2 == 3 || bits w 6 4 > 4 || (log != 12 && bitAt w 11)
    || pteFrame w % 2 ^ log != 0 || pteFrame w + 2 ^ log > targetEnd (bits w 6 4)
    || (bits w 6 4 == 0 && !s.groupAdmits (pteFrame w) ctx)

/-- Where a table's entry lies and what it holds; outside LP6 or in a group that does not admit the context: none. -/
def State.readPte (s : State) (ctx table ix : Nat) : Option Word :=
  if table + 8 * ix + 8 ≤ 2 ^ 40 && s.groupAdmits (table + 8 * ix) ctx
  then some (wd (s.readNat (table + 8 * ix) 8)) else none

/-- Sixteen consecutive L0 entries form one 64 KiB page (R260). -/
def State.contigPage (s : State) (ctx table ix : Nat) : Bool :=
  let ws := (List.range 16).filterMap fun i => s.readPte ctx table (ix / 16 * 16 + i)
  let w0 := wordAt ws 0
  ws.length == 16 && pteFrame w0 % 65536 == 0 &&
    (List.range 16).all fun i =>
      let w := wordAt ws i
      bitAt w 0 && bitAt w 11 && bits w 11 0 == bits w0 11 0 && pteFrame w == pteFrame w0 + 4096 * i && !s.pteBad ctx w 12

/-- The words that a walk reads for an entry: a contiguous entry of the last level is read with its fifteen neighbours. -/
def pteWords (table ix sh : Nat) (w : Word) : List Nat :=
  if sh = 12 ∧ bitAt w 0 ∧ bitAt w 11 then (List.range 16).map fun i => table + 8 * (ix / 16 * 16 + i) else [table + 8 * ix]

/-- A walk from a table on: the table entries that it has read, and the page's entry with the log₂ of the page's size. The
list gives each level's shift and width. A word with an uncorrectable error ends it (R367). -/
def State.walkFrom (s : State) (ctx va : Nat) : List (Nat × Nat) → Nat → List WalkEntry → List WalkEntry × Except Tr (Word × Nat)
  | [], _, ts => (ts, .error (.prot .rc))
  | (sh, width) :: r, table, ts =>
    let ix := va / 2 ^ sh % 2 ^ width
    match s.readPte ctx table ix with
    | none => (ts, .error (.prot .rc))
    | some w =>
      match (pteWords table ix sh w).findSome? fun a => s.badWord a 8 with
      | some p => (ts, .error (.flaw p))
      | none =>
      if !bitAt w 0 then (ts, .error (.unmapped (pteKind w)))
      else if bitAt w 1 then
        if r.isEmpty || bits w 63 56 != 0 || bits w 11 2 != 0 then (ts, .error (.prot (pteKind w)))
        else s.walkFrom ctx va r (pteFrame w) (ts ++ [{ ctx := ctx, vpn := va / 2 ^ sh, log := sh, table := pteFrame w }])
      else if sh = 43 || s.pteBad ctx w sh then (ts, .error (.prot (pteKind w)))
      else (ts, .ok (w, if sh = 12 && bitAt w 11 && s.contigPage ctx table ix then 16 else sh))

/-- The words of the tables that a walk reads, from a table on. -/
def State.walkReads (s : State) (ctx va : Nat) : List (Nat × Nat) → Nat → List Nat
  | [], _ => []
  | (sh, width) :: r, table =>
    let ix := va / 2 ^ sh % 2 ^ width
    match s.readPte ctx table ix with
    | none => []
    | some w => pteWords table ix sh w ++ if bitAt w 0 && bitAt w 1 then s.walkReads ctx va r (pteFrame w) else []

/-- Words of the tables are read: an error of one bit is corrected and counted (R367). (DESIGN CHOICE: log 65) -/
def State.meetWalk (s : State) (reads : List Nat) : State := reads.foldl (fun s a => s.meetFlaws a 8) s

/-- The levels of the tables: shift and width of each index (R258). -/
def walkLevels : List (Nat × Nat) := [(43, 13), (31, 12), (21, 10), (12, 9)]

/-- The walk of an address from the context's root (R258). -/
def State.walk (s : State) (ctx va : Nat) : Except Tr (Word × Nat) :=
  (s.walkFrom ctx va walkLevels (s.ctx ctx).ptroot.toNat []).2

/-- The access that a page's entry allows, at the place it maps the address to (R259, R260, R170). -/
def State.applyPte (s : State) (ctx va : Nat) (w : Word) (log : Nat) (n : Need) : Tr :=
  let pa := pteFrame w / 2 ^ log * 2 ^ log + va % 2 ^ log
  if (n.read && !bitAt w 7) || (n.write && !bitAt w 8) || (n.exec && !bitAt w 9) || (n.eng && !bitAt w 10) then .prot (pteKind w)
  else match bits w 6 4 with
    | 0 => .ok pa (pteKind w) log w
    | 1 =>
      let cl := pa / 2 ^ 25
      if bitAt ((s.ctx ctx).part.setWidth 64) cl && s.owns ctx cl (pa % 2 ^ 25)
      then .ok (sliceLoc cl (pa % 2 ^ 25)) (pteKind w) log w else .owner (pteKind w)
    | 2 => .ok (hostLoc pa) .so log w
    | 3 => .ok (notifyLoc (pa / 4096) (pa % 4096)) .so log w
    | 4 => if (s.ctx ctx).priv then .ok (regLoc pa) .so log w else .prot .so
    | _ => .prot (pteKind w)

/-- Translation by the tables alone, as the die's own units make it. -/
def State.translate (s : State) (ctx : Nat) (va : Nat) (n : Need) : Tr :=
  match s.walk ctx va with
  | .error t => t
  | .ok (w, log) => s.applyPte ctx va w log n

/-! ### TLBs (R261) -/

/-- The clients of a cluster's TLBs. -/
inductive TlbKind where
  | mem
  | matrix
  | copy
  | fetch
deriving DecidableEq, Repr

/-- One TLB of a cluster. -/
def ClusterSt.tlb (c : ClusterSt) : TlbKind → List TlbEntry
  | .mem => c.tlbMem
  | .matrix => c.tlbMatrix
  | .copy => c.tlbCopy
  | .fetch => c.tlbFetch

/-- A cluster with one TLB replaced. (DEDUCED: log 13) -/
def ClusterSt.setTlb (c : ClusterSt) (k : TlbKind) (es : List TlbEntry) : ClusterSt :=
  match k with
  | .mem => { c with tlbMem := es }
  | .matrix => { c with tlbMatrix := es }
  | .copy => { c with tlbCopy := es }
  | .fetch => { c with tlbFetch := es }

/-- Entries of each TLB (R261). (DEDUCED: log 13) -/
def tlbSize : TlbKind → Nat
  | .mem => 2048
  | .matrix => 512
  | .copy => 512
  | .fetch => 256

/-- An entry covers an address of a context. -/
def TlbEntry.covers (e : TlbEntry) (ctx va : Nat) : Bool := e.ctx == ctx && e.vpn == va / 2 ^ e.log

/-- An entry that its TLB keeps (R261): the page of a descriptor that a queued command of the cluster has captured, its load
done or not, or of a resident kernel's entry. -/
def State.pinned (s : State) (cluster : Nat) (k : TlbKind) (e : TlbEntry) : Bool :=
  let mine := fun t : Team => t.core / 8 == cluster && !t.gone
  match k with
  | .matrix => s.teams.any fun p => mine p.2 && p.2.bruin.cmds.any fun c => c.snaps.any fun x =>
      match x.2 with
      | .valid d => e.covers p.2.ctx d.addr.toNat
      | .loading op => (tget s.ops op).any fun o => o.pieces.any fun q => e.covers p.2.ctx q.gva
      | .invalid => false
  | .fetch => s.teams.any fun p => mine p.2 && e.covers p.2.ctx (p.2.hdr.addr.toNat + p.2.hdr.entry)
  | _ => false

/-- A TLB's entries within its size: the one that has stood longest leaves, unless it is pinned. -/
def evict (pin : TlbEntry → Bool) (n : Nat) (es : List TlbEntry) : List TlbEntry :=
  if es.length ≤ n then es
  else match es.reverse.find? fun e => !pin e with
    | some e => es.erase e
    | none => es.take n

/-- The walk of a cluster: from the deepest table entry that its walker holds for the address (R261, R262). It takes in
what it reads. (DEDUCED: log 13) -/
def State.walkCached (s : State) (cluster ctx va : Nat) : State × Except Tr (Word × Nat) :=
  let held := (s.cluster cluster).walks.filter fun e => e.ctx == ctx && e.vpn == va / 2 ^ e.log
  let start : List (Nat × Nat) × Nat := match minBy WalkEntry.log held with
    | some e => (walkLevels.filter fun l => decide (l.1 < e.log), e.table)
    | none => (walkLevels, (s.ctx ctx).ptroot.toNat)
  let q := s.walkFrom ctx va start.1 start.2 []
  let s := s.meetWalk (s.walkReads ctx va start.1 start.2)
  (if q.1.isEmpty then s else s.updCluster cluster fun c => { c with walks := c.walks ++ q.1 }, q.2)

/-- Translation through a cluster's TLB: an entry it holds is used, whatever the tables now say (R262); otherwise the
walk's valid entry is taken in, and beyond the TLB's size one leaves. (DEDUCED: log 13) -/
def State.translateTlb (s : State) (cluster : Nat) (k : TlbKind) (ctx va : Nat) (n : Need) : State × Tr :=
  let es := (s.cluster cluster).tlb k
  match es.find? fun e => e.covers ctx va with
  | some e =>
    let lru := match k with | .mem | .fetch => true | _ => false
    (if lru then s.updCluster cluster fun c => c.setTlb k (e :: es.erase e) else s, s.applyPte ctx va e.pte e.log n)
  | none =>
    match s.walkCached cluster ctx va with
    | (s, .error t) => (s, t)
    | (s, .ok (w, log)) =>
      let e : TlbEntry := { ctx := ctx, vpn := va / 2 ^ log, log := log, pte := w }
      (s.updCluster cluster fun c => c.setTlb k (evict (s.pinned cluster k) (tlbSize k) (e :: es)), s.applyPte ctx va w log n)

/-- No permission is asked for. -/
def Need.none' : Need := { read := false, write := false, exec := false, eng := false }

/-- Where an address of a context lies for a cluster's client, permissions apart: nothing is taken in. -/
def State.peekTlb (s : State) (cluster : Nat) (k : TlbKind) (ctx va : Nat) : Option Nat :=
  let t := match ((s.cluster cluster).tlb k).find? fun e => e.covers ctx va with
    | some e => s.applyPte ctx va e.pte e.log .none'
    | none =>
      match (s.walkCached cluster ctx va).2 with
      | .ok (w, log) => s.applyPte ctx va w log .none'
      | .error x => x
  match t with
  | .ok p _ _ _ => some p
  | _ => none

/-- A page is brought into a TLB ahead of its use, where it is mapped (R261). (DEDUCED: log 13) -/
def State.prefetch (s : State) (cluster : Nat) (k : TlbKind) (ctx : Nat) (va : Word) : State :=
  if va.toNat / 2 ^ 56 ≠ 0 || ((s.ctx ctx).window va).isSome then s else (s.translateTlb cluster k ctx va.toNat .none').1

/-- Translation by the ingress translator, through its TLB of 1,024 entries; its walks go through the walker of cluster 0
(R263). (DEDUCED: log 13) -/
def State.translateIngress (s : State) (ctx va : Nat) (n : Need) : State × Tr :=
  match s.fabric.tlb.find? fun e => e.covers ctx va with
  | some e => (s, s.applyPte ctx va e.pte e.log n)
  | none =>
    match s.walkCached 0 ctx va with
    | (s, .error t) => (s, t)
    | (s, .ok (w, log)) =>
      let e : TlbEntry := { ctx := ctx, vpn := va / 2 ^ log, log := log, pte := w }
      ({ s with fabric := { s.fabric with tlb := (e :: s.fabric.tlb).take 1024 } }, s.applyPte ctx va w log n)

/-- The context whose tables translate a context's accesses to the device's own POD, if its group may enter (R113, R380). -/
def State.selfIngress (s : State) (ctx : Nat) (va : Word) : Option Nat :=
  let e := tgetD s.fabric.ingress (s.ctx ctx).podgid.toNat 0
  if va.toNat / 2 ^ 56 = s.fabric.pod.toNat && e.getLsbD 7 then some (e.toNat % 64) else none

/-! ### One access of a thread (R117 to R121) -/

/-- The kinds of a thread's access. -/
inductive AccKind where
  | load
  | store
  | atomic
  | fetch
deriving DecidableEq, Repr

/-- What each kind needs of a page (R260). -/
def AccKind.need : AccKind → Need
  | .load => { read := true, write := false, exec := false, eng := false }
  | .store => { read := false, write := true, exec := false, eng := false }
  | .atomic => { read := true, write := true, exec := false, eng := false }
  | .fetch => { read := false, write := false, exec := true, eng := false }

/-- The answer to the checks of R120. `unmapped`: the first byte of the part in the unmapped page, whether a part is SO, and
the parts with their kinds, that of an unmapped page included (R260). -/
inductive Access where
  | ok (ps : List Piece)
  | fault (f : FaultInfo)
  | unmapped (addr : Word) (so : Bool) (ps : List Piece)
deriving DecidableEq, Repr

/-- The parts of `n` bytes at `va`, cut where a 4 KiB page ends: offset and length. -/
def pageParts (va : Nat) : Nat → Nat → Nat → List (Nat × Nat)
  | 0, _, _ => []
  | fuel + 1, o, n =>
    if n = 0 then [] else
      let k := min n (4096 - (va + o) % 4096)
      (o, k) :: pageParts va fuel (o + k) (n - k)

/-- The path of a place for drains (R133). -/
def pathOf (local' : Bool) (place : Nat) (pte : Word) : Path :=
  if local' then .globalOther
  else if bits pte 6 4 = 0 then .globalLp6
  else if 2 ^ 42 ≤ place && place < 2 ^ 43 then .hostWindow
  else .globalOther

/-- A part that has no place: of an unmapped page, or of one behind it that the access may not use. -/
def unplacedPart (base o k : Nat) (va : Word) (kind : Kind) : Piece :=
  { place := 0, gva := base + o, mapped := false, len := k, va := va + wd o, kind := kind, path := .globalOther, page := none }

/-- The translated parts of an access, in order; the first part that fails decides. An access whose first failing page is
unmapped keeps every part, that of a page it may not use included (R126 to R128). (DESIGN CHOICE: log 14) -/
def State.accessParts (s : State) (cluster : Nat) (tk : TlbKind) (ctx : Nat) (base : Nat) (va : Word) (local' : Bool)
    (n : Need) : List (Nat × Nat) → List Piece → Option Word → Bool → State × Access
  | [], ps, none, _ => (s, .ok ps.reverse)
  | [], ps, some a, so => (s, .unmapped a so ps.reverse)
  | (o, k) :: r, ps, un, so =>
    match s.translateTlb cluster tk ctx (base + o) n with
    | (s, .ok p kind log pte) =>
      let pc : Piece :=
        { place := p, gva := base + o, mapped := true, len := k, va := va + wd o, kind := kind, path := pathOf local' p pte,
          page := some ((base + o) / 2 ^ log, log) }
      s.accessParts cluster tk ctx base va local' n r (pc :: ps) un (so || decide (kind = .so))
    | (s, .unmapped kind) =>
      s.accessParts cluster tk ctx base va local' n r (unplacedPart base o k va kind :: ps) (un.or (some (va + wd o)))
        (so || decide (kind = .so))
    | (s, .prot kind) =>
      if un.isNone then (s, .fault (protection (va + wd o)))
      else s.accessParts cluster tk ctx base va local' n r (unplacedPart base o k va kind :: ps) un (so || decide (kind = .so))
    | (s, .owner kind) =>
      if un.isNone then (s, .fault (clusterOwner (va + wd o)))
      else s.accessParts cluster tk ctx base va local' n r (unplacedPart base o k va kind :: ps) un (so || decide (kind = .so))
    | (s, .flaw p) => (s, .fault (flawFault p))

/-- A read reaches a dead segment (R120 step 4), which comes before any fault of its pages: the first byte of the part. -/
def State.deadPart (s : State) (cluster : Nat) (tk : TlbKind) (ctx base : Nat) (va : Word) (ps : List (Nat × Nat)) : Option Word :=
  (ps.find? fun p => (s.peekTlb cluster tk ctx (base + p.1)).any fun q => s.deadRange q p.2).map fun p => va + wd p.1

/-- First offset of `n` bytes from `o` whose slice byte the context does not own, or that lies beyond the slice. -/
def State.unowned (s : State) (ctx cluster o n : Nat) : Option Nat :=
  ([o] ++ (if (o + n - 1) / 65536 ≠ o / 65536 then [(o + n - 1) / 65536 * 65536] else [])).find? fun x =>
    2 ^ 25 ≤ x || !s.owns ctx cluster x

/-- A remote owner can be reached (R379): the device itself, or a member of the pod with a route. -/
def State.routed (s : State) (owner : Nat) : Bool :=
  (owner == s.fabric.pod.toNat && s.fabric.pod != 0) || (tgetD s.fabric.routes owner 0).getLsbD 11

/-- The kind of the page at a remote address (R257, R381): in the device's own POD that of the entry that its ingress
translator holds or walks to (R251), in another device's memory a free value. (DEDUCED: log 37) -/
def State.remoteKind (s : State) (ctx : Nat) (va : Word) : Kind :=
  if va.toNat / 2 ^ 56 = s.fabric.pod.toNat then
    match (s.selfIngress ctx va).map fun c => (s.translateIngress c (va.toNat % 2 ^ 56) .none').2 with
    | some (.ok _ k _ _) => k
    | some (.unmapped k) => k
    | _ => .rc
  else pteKind (wd (Config.remotePage (va.toNat / 4096) % 4 * 4))

/-- The part that a remote access is: one request, with the kind of each page it reaches (R251). -/
def State.remotePart (s : State) (ctx : Nat) (va : Word) (size : Nat) : Piece :=
  let edge := va.toNat / 4096 * 4096 + 4096
  { place := 0, gva := 0, mapped := true, len := size, va := va, kind := s.remoteKind ctx va, path := .remote, page := none,
    more := if edge < va.toNat + size then some (s.remoteKind ctx (wd edge)) else none }

/-- The checks of R120 for one access of a team's thread, and its parts. `ordered`: acquire, release, sc or atomic. -/
def State.accessFor (s : State) (t : Team) (tk : TlbKind) (eng : Bool) (sid : Nat) (va : Word) (size : Nat) (k : AccKind)
    (ordered : Bool) : State × Access :=
  let c := s.ctx t.ctx
  let need := { k.need with eng := eng }
  let owner := va.toNat / 2 ^ 56
  if owner = 255 then (s, .fault (protection va))
  else if ordered && va.toNat % size ≠ 0 then (s, .fault (misaligned va))
  else if owner ≠ 0 then
    if s.routed owner then
      (s, .ok [s.remotePart t.ctx va size])
    else (s, .fault (protection va))
  else
    let reads := match k with | .load | .atomic => true | _ => false
    let paged := fun (base : Nat) (loc : Bool) =>
      let parts := pageParts base 4 0 size
      match if reads then s.deadPart (sidCluster sid) tk t.ctx base va parts else none with
      | some a => (s, .fault (bankOff a))
      | none =>
        match s.accessParts (sidCluster sid) tk t.ctx base va loc need parts [] none false with
        | (s, .ok ps) => if ordered && ps.any (fun p => p.kind = .uo) then (s, .fault (protection va)) else (s, .ok ps)
        | r => r
    match c.window va with
    | some (.loc, o) =>
      if c.locsz < o + size then (s, .fault (protection (va + wd (c.locsz - o))))
      else paged (c.locpool.toNat + c.locsz * sid + o) true
    | some (.shared, o) =>
      if t.allocSegs * 4096 < o + size then (s, .fault (sharedBounds (va + wd (t.allocSegs * 4096 - o))))
      else
        let p : Piece :=
          { place := sliceLoc (sidCluster sid) (t.allocOff + o), gva := 0, mapped := true, len := size, va := va, kind := .rc, path := .shared,
            page := none }
        if reads && s.deadRange p.place p.len then (s, .fault (bankOff va)) else (s, .ok [p])
    | some (.cluster, o) =>
      match s.unowned t.ctx (sidCluster sid) o size with
      | some x => (s, .fault (clusterOwner (va + wd (x - o))))
      | none =>
        let p : Piece :=
          { place := sliceLoc (sidCluster sid) o, gva := 0, mapped := true, len := size, va := va, kind := .rc, path := .cluster, page := none }
        if reads && s.deadRange p.place p.len then (s, .fault (bankOff va)) else (s, .ok [p])
    | none => paged va.toNat false

/-- The checks of R120 for one access of a thread, and its parts. (DESIGN CHOICE: log 14) -/
def State.access (s : State) (tk : TlbKind) (eng : Bool) (sid : Nat) (va : Word) (size : Nat) (k : AccKind)
    (ordered : Bool) : State × Access :=
  match s.teamOf sid with
  | none => (s, .fault (protection va))
  | some t => s.accessFor t tk eng sid va size k ordered

/-- A page of an agent other than a thread: the place of one byte, or why not (R391). -/
def State.agentPlace (s : State) (ctx : Nat) (va : Word) (n : Need) : Tr :=
  if va.toNat / 2 ^ 56 ≠ 0 then .prot .rc else s.translate ctx va.toNat n

/-- `n` bytes read by a die unit for a context; none where a part is unmapped, lacks READ or is malformed, or a word of it
has an uncorrectable error (R367) or gets no completion (R364). (DESIGN CHOICE: log 65) -/
def State.agentRead (s : State) (ctx : Nat) (va : Word) (eng : Bool) (n : Nat) : Option (List Byte) :=
  (pageParts va.toNat (n / 4096 + 2) 0 n).foldl (fun acc p =>
    match acc, s.agentPlace ctx (va + wd p.1) { read := true, write := false, exec := false, eng := eng } with
    | some bs, .ok place _ _ _ =>
      if (s.badWord place p.2).isSome || (s.silent place p.2).isSome then none else some (bs ++ s.readWoken place p.2)
    | _, _ => none) (some [])

/-- Why a read by a die unit fails, other than by its pages' entries: FABRIC_TIMEOUT where the host gives no completion
(R364), UNCORRECTABLE with the PA of the word, of the tables too (R367). The first part that fails decides.
(DESIGN CHOICE: log 65) -/
def State.agentFlaw (s : State) (ctx : Nat) (va : Word) (eng : Bool) (n : Nat) : Option (BitVec 5 × Word) :=
  ((pageParts va.toNat (n / 4096 + 2) 0 n).findSome? fun p =>
    match s.agentPlace ctx (va + wd p.1) { read := true, write := false, exec := false, eng := eng } with
    | .ok place _ _ _ =>
      match s.silent place p.2, s.badWord place p.2 with
      | some _, _ => some (some (0x1A#5, va))
      | none, some w => some (some (0x19#5, wd w))
      | none, none => none
    | .flaw w => some (some (0x19#5, wd w))
    | _ => some none).join

/-- The code and address of the record of a read by a die unit that fails: PROTECTION by its pages. -/
def State.readFault (s : State) (ctx : Nat) (va : Word) (eng : Bool) (n : Nat) : BitVec 5 × Word :=
  (s.agentFlaw ctx va eng n).getD (0x0D, va)

/-- An access to host memory has had its time (R364): the next one is answered again. -/
def State.hear (s : State) (p n : Nat) : State :=
  { s with flaws := s.flaws.filter fun f => !(f.2 == 4 && rangesMeet (8 * f.1) 8 p n) }

/-- An access of a die unit would get no completion from the host (R364). (DESIGN CHOICE: log 65) -/
def State.agentSilent (s : State) (ctx : Nat) (va : Word) (n : Nat) : Bool :=
  (pageParts va.toNat (n / 4096 + 2) 0 n).any fun p =>
    match s.agentPlace ctx (va + wd p.1) .none' with
    | .ok place _ _ _ => (s.silent place p.2).isSome
    | _ => false

/-- The words of host memory that it reaches are answered again. -/
def State.agentHear (s : State) (ctx : Nat) (va : Word) (n : Nat) : State :=
  (pageParts va.toNat (n / 4096 + 2) 0 n).foldl (fun s p =>
    match s.agentPlace ctx (va + wd p.1) .none' with
    | .ok place _ _ _ => s.hear place p.2
    | _ => s) s

/-- A read by a die unit uses the banks of the slice that it reaches (R151), and meets the errors of its words and of the
tables' words. -/
def State.agentTouch (s : State) (ctx : Nat) (va : Word) (eng : Bool) (n : Nat) : State :=
  (pageParts va.toNat (n / 4096 + 2) 0 n).foldl (fun s p =>
    let s := s.meetWalk (s.walkReads ctx (va + wd p.1).toNat walkLevels (s.ctx ctx).ptroot.toNat)
    match s.agentPlace ctx (va + wd p.1) { read := true, write := false, exec := false, eng := eng } with
    | .ok place _ _ _ => (s.hear place p.2).noteRead place p.2
    | _ => s) s

/-- A write of a die unit gets no completion from the host (R364): it is not made, and FABRIC_TIMEOUT follows.
(DESIGN CHOICE: log 65) -/
def State.writeTimesOut (s : State) (ctx : Nat) (va : Word) (p n : Nat) : State :=
  { s.hear p n with agenda := .hostTimeout (.unit ctx va) :: s.agenda }

/-- Bytes written by a die unit for a context; none where a part cannot be written. -/
def State.agentWrite (s : State) (ctx : Nat) (va : Word) (eng : Bool) (bs : List Byte) : Option State :=
  let parts := pageParts va.toNat (bs.length / 4096 + 2) 0 bs.length
  let ok := parts.all fun p =>
    match s.agentPlace ctx (va + wd p.1) { read := false, write := true, exec := false, eng := eng } with
    | .ok _ _ _ _ => true
    | _ => false
  if ok then
    some (parts.foldl (fun s p =>
      match s.agentPlace ctx (va + wd p.1) { read := false, write := true, exec := false, eng := eng } with
      | .ok place _ _ _ =>
        if (s.silent place p.2).isSome then s.writeTimesOut ctx (va + wd p.1) place p.2
        else s.store place ((bs.drop p.1).take p.2)
      | _ => s) s)
  else none

end Sys2Proof.Machine
end

