-- ==== Sys2Proof/Machine/Memory.lean ====
section
/-! DEFINITION. Accesses in flight: issuing them, the order in which they may be performed (R126, R245), and the waits
of fences and drains (R131, R133, R253). -/

namespace Sys2Proof.Machine

/-! ### Accesses in flight -/

/-- An access is issued: its number is the next. -/
def State.addOp (s : State) (op : MemOp) : State × Nat := ({ s.bump with ops := tset s.ops s.fresh op }, s.fresh)

/-- A thread owes pending values, under the PC of the instruction (R358). -/
def State.owe (s : State) (sid : Nat) (pc : Word) (toks : List Nat) : State :=
  s.updThread sid fun th => { th with owed := th.owed ++ toks.map fun t => (t, pc) }

/-- New tokens, `n` of them. -/
def State.tokens (s : State) (n : Nat) : State × List Nat :=
  ({ s with fresh := s.fresh + n }, (List.range n).map fun i => s.fresh + i)

/-- The access reads memory. -/
def MemOp.isLoad (o : MemOp) : Bool :=
  match o.act with
  | .load _ | .atomic .. | .descriptor .. | .texture .. => true
  | _ => false

/-- The access writes memory. -/
def MemOp.isStore (o : MemOp) : Bool :=
  match o.act with
  | .store _ | .atomic .. | .pixel .. | .tail .. => true
  | _ => false

/-- An atomic with a returned value (R130). -/
def MemOp.isAtomicRet (o : MemOp) : Bool :=
  match o.act with
  | .atomic _ _ _ _ (some _) => true
  | _ => false

/-- The kinds of the pages that a part lies in. -/
def Piece.kinds (p : Piece) : List Kind := p.kind :: p.more.toList

/-- The kinds of the pages that an access reaches: each part follows its own (R251). -/
def MemOp.kinds (o : MemOp) : List Kind := o.pieces.flatMap Piece.kinds

/-- Every part of the access lies in a UO page. -/
def MemOp.allUo (o : MemOp) : Bool := !o.pieces.isEmpty && o.kinds.all fun k => decide (k = .uo)

/-- Some part of the access lies in an SO page, its owner's too (R250, R257). -/
def MemOp.anySo (o : MemOp) : Bool := o.kinds.any fun k => decide (k = .so)

/-- Where the parts of an access lie now (R241): a part of an unmapped page where its page has been mapped since (R126), and
a part in the device's own POD where the ingress translator places it, by an entry that it holds (R113, R262, R380). -/
def State.spots (s : State) (o : MemOp) : List (Nat × Nat) :=
  let at' := fun (tr : Nat → Tr) (va len : Nat) => (pageParts va (len / 4096 + 2) 0 len).filterMap fun q =>
    match tr (va + q.1) with | .ok x _ _ _ => some (x, q.2) | _ => none
  o.pieces.flatMap fun p =>
    if p.path = .remote then
      match s.selfIngress o.ctx p.va with
      | some c => at' (fun va => (s.translateIngress c va .none').2) (p.va.toNat % 2 ^ 56) p.len
      | none => []
    else if p.mapped then [(p.place, p.len)] else at' (fun va => s.translate o.ctx va .none') p.gva p.len

/-- Two accesses share a location (R241), as they lie now; in another device's memory, an address. -/
def State.meets (s : State) (a b : MemOp) : Bool :=
  (s.spots a).any (fun p => (s.spots b).any fun q => rangesMeet p.1 p.2 q.1 q.2)
    || (a.pieces.any fun p => decide (p.path = .remote)
        && b.pieces.any fun q => decide (q.path = .remote) && rangesMeet p.va.toNat p.len q.va.toNat q.len)

/-- Two accesses of one thread. -/
def MemOp.sameThread (a b : MemOp) : Bool := a.sid == b.sid && a.team == b.team && a.wid == b.wid

/-- Some part of `b` that is no UO access reaches the kind of page of a part of `a`, which it is ordered with (R245,
R251). -/
def MemOp.kinWith (a b : MemOp) : Bool :=
  b.kinds.any fun k => decide (k ≠ .uo) && a.kinds.contains k

/-- Two descriptor loads into one table entry (R217). -/
def MemOp.sameEntry (a b : MemOp) : Bool :=
  match a.act, b.act with
  | .descriptor i _, .descriptor j _ => i == j
  | _, _ => false

/-- The access orders later ones after it: an acquire or sc load, an atomic with a returned value (R245). -/
def MemOp.acquires (o : MemOp) : Bool := decide (o.ord = .acquire) || (decide (o.ord = .sc) && o.isLoad) || o.isAtomicRet

/-- `a`, the earlier of one thread, is ordered before `b` (R245; fences and drains wait at issue, cases 4 and 5).
(DEDUCED: log 10) -/
def State.orderedBefore (s : State) (a b : MemOp) : Bool :=
  s.meets a b || a.sameEntry b
    || (a.acquires && a.kinWith b)
    || ((decide (b.ord = .release) || (decide (b.ord = .sc) && b.isStore) || b.isAtomicRet) && a.kinWith b)
    || (a.anySo && b.anySo)

/-- Two accesses of one issue: no core begins two words in a clock (R242). (DEDUCED: log 10) -/
def MemOp.sameIssue (a b : MemOp) : Bool := a.core == b.core && a.clk == b.clk

/-- Nothing that comes before access `id` is still in flight: the order of its thread (R245), that of the lanes of its issue
at one location (R242), for an access that overlaps an earlier side-log entry of its bank that entry (R126), and for one
that reaches a segment which an earlier store has made live that store (R152).
(DESIGN CHOICE: log 6) (DEDUCED: log 10) -/
def State.inOrder (s : State) (id : Nat) (b : MemOp) : Bool :=
  s.ops.all fun p =>
    id ≤ p.1 || !((p.2.sameThread b && s.orderedBefore p.2 b) || (p.2.sameIssue b && s.meets p.2 b)
      || (p.2.logged && p.2.core == b.core && p.2.bank == b.bank && s.meets p.2 b)
      || (p.2.woke && s.meets p.2 b))

/-- The accesses of a thread that are still in flight. -/
def State.opsOf (s : State) (sid : Nat) : List MemOp :=
  match tget s.threads sid with
  | none => []
  | some th => (s.ops.map Prod.snd).filter fun o => o.sid == sid && o.team == th.team && o.wid == th.wid

/-- A fence of the thread still waits (R131): 0 sc, 1 ar, 2 acq, 3 rel. UO accesses are never ordered. -/
def State.fenceWaits (s : State) (sid : Nat) (kind : Nat) : Bool :=
  (s.opsOf sid).any fun o => !o.allUo && (kind != 2 || o.isLoad)

/-- Every access of the thread is performed (R253). -/
def State.threadQuiet (s : State) (sid : Nat) : Bool := (s.opsOf sid).isEmpty

/-- A path is waited for by a form of `drain` (R133): 0 shared, 1 cluster, 2 global, 3 host. -/
def Path.drained (p : Path) (form : Nat) : Bool :=
  match p, form with
  | .all, _ => true
  | .shared, 0 => true
  | .cluster, 1 => true
  | .globalLp6, 2 | .globalOther, 2 | .hostWindow, 2 | .remote, 2 => true
  | .globalLp6, 3 | .hostWindow, 3 => true
  | _, _ => false

/-- A counted write of a bank that is an access in flight, on a path; a logged write of an unmapped page counts on the
global and the host path (R133). -/
def MemOp.drained (o : MemOp) (form : Nat) : Bool :=
  o.pieces.any fun p => if p.mapped then p.path.drained form else form == 2 || form == 3

/-- The path of an address for a team (R133). -/
def State.addrPath (s : State) (t : Team) (va : Word) : Path :=
  if va.toNat / 2 ^ 56 ≠ 0 then .remote
  else
    match (s.ctx t.ctx).window va with
    | some (.loc, _) => .globalOther
    | some (.shared, _) => .shared
    | some (.cluster, _) => .cluster
    | none =>
      match s.translate t.ctx va.toNat .none' with
      | .ok place _ _ pte => pathOf false place pte
      | _ => .globalOther

/-- What an `mst` writes lies on a path (R133); while its snapshot is still loading it may. (DEDUCED: log 35) -/
def State.cmdDrained (s : State) (t : Team) (e : BEntry) (form : Nat) : Bool :=
  match e.cmd with
  | .mst _ b =>
    e.snaps.any fun x =>
      match x.2 with
      | .loading _ => true
      | .valid d => (mstPages d.words (bits b 63 32) (bits b 31 0)).any fun a => (s.addrPath t a).drained form
      | .invalid => false
  | _ => false

/-- A `tail` that is not complete counts on every path (R299): its write is in flight, or its chain has not reached it.
(DEDUCED: log 35) -/
def State.tailOpen (s : State) (core bank n : Nat) : Bool :=
  s.ops.any (fun p => p.2.core == core && p.2.bank == bank && p.2.wnum == some n
      && match p.2.act with | .tail _ _ => true | _ => false)
    || s.ctxs.any fun c => (c.2.chains ++ c.2.binners).any fun h => h.2.tails.any fun t =>
        t.core == core && t.bank == bank && t.wnum == n

/-- A drain of a bank still waits (R133): a counted write whose target is on the path is not complete. A `tail`, an
access in flight, a queued command or a ray. (DEDUCED: log 35) -/
def State.drainWaits (s : State) (core bank form : Nat) : Bool :=
  (vget (s.core core).open' bank []).any fun n =>
    s.tailOpen core bank n
      || s.ops.any (fun p => p.2.core == core && p.2.bank == bank && p.2.wnum == some n && p.2.drained form)
      || s.teams.any fun p => p.2.core == core && p.2.bank == bank
          && (p.2.bruin.cmds.any (fun e => e.wnum == some n && s.cmdDrained p.2 e form)
            || p.2.rays.rays.any fun r => r.wnum == n && (s.addrPath p.2 r.addr).drained form)

/-- An access in flight was translated with an entry that covers an address of a context, or any of the context, or any
at all (R264). -/
def MemOp.translatedBy (o : MemOp) (kind ctx va : Nat) : Bool :=
  o.pieces.any fun p =>
    match p.page with
    | none => false
    | some (vpn, log) =>
      match kind with
      | 0 => o.ctx == ctx && vpn == va / 2 ^ log
      | 1 => o.ctx == ctx
      | _ => true

end Sys2Proof.Machine
end

