-- ==== Sys2Proof/Machine/Operands.lean ====
section
/-! DEFINITION. Every operand form: hint runs (R45 to R49), source selectors (R38, R40), destinations (R14, R39),
hardware-queue operands (R156, R157), and the run of one word over its group with the checks of R44 and the group's
bookkeeping (R14, R18 to R20, R34, R100, R101, R110). -/

namespace Sys2Proof.Machine

/-! ### Hint runs (R45 to R49) -/

/-- The modifiers of `hmod` (R47); `neg` and `abs` have bit 0 for source a, 1 for b, 2 for c. -/
structure Mods where
  rnd : Nat
  sat : Bool
  ftz : Bool
  neg : Nat
  abs : Nat
  scope : Nat
  cache : Nat
  trap : Bool
deriving DecidableEq, Repr

/-- The fields of an `hmod` payload. -/
def Mods.of (p : Nat) : Mods :=
  { rnd := p / 2 ^ 20 % 4, sat := p / 2 ^ 19 % 2 == 1, ftz := p / 2 ^ 18 % 2 == 1, neg := p / 2 ^ 15 % 8,
    abs := p / 2 ^ 12 % 8, scope := p / 2 ^ 9 % 8, cache := p / 2 ^ 7 % 4, trap := p / 2 ^ 6 % 2 == 1 }

/-- Kind of a hint word. -/
def hintKind (w : IWord) : Nat := w.toNat / 2 ^ 22 % 8

/-- Payload of a hint word. -/
def hintPayload (w : IWord) : Nat := w.toNat % 2 ^ 22

/-- The payload of the first word of a kind in a run. -/
def runPart (ws : List IWord) (k : Nat) : Option Nat := (ws.find? fun w => hintKind w == k).map hintPayload

/-- The `himm` words of a run stand together: 0 none seen, 1 in the block, 2 after it (R45). -/
def himmTogether : List IWord → Nat → Bool
  | [], _ => true
  | w :: r, st =>
    if hintKind w == 0 then st != 2 && himmTogether r 1 else himmTogether r (if st == 1 then 2 else st)

/-- A payload outside its values (R44, R47 to R49). -/
def payloadBad (w : IWord) : Bool :=
  let p := hintPayload w
  match hintKind w with
  | 0 => false
  | 1 => p % 64 != 0 || p / 2 ^ 9 % 8 > 5
  | 2 => p % 2 ^ 17 != 0
  | 3 | 4 => p / 2 ^ 16 != 0
  | 5 => p % 4 != 0
  | _ => true

/-- The run itself is ILLEGAL_OPCODE under a version (R44, R45, R53). -/
def runBad (ver : Nat) (ws : List IWord) : Bool :=
  ws.any payloadBad || !himmTogether ws 0 || (ws.filter fun w => hintKind w == 0).length > 3
    || ([1, 2, 3, 4, 5].any fun k => (ws.filter fun w => hintKind w == k).length > 1)
    || (ver < 3 && ws.any fun w => hintKind w == 5)

/-- The wide immediate of a run (R46). -/
def runHimm (ws : List IWord) : Option Word :=
  match ws.filter fun w => hintKind w == 0 with
  | [] => none
  | hs => some (wi (sgn (22 * hs.length) (hs.foldl (fun a w => a * 2 ^ 22 + hintPayload w) 0)))

/-- The registers a run's drop masks name (R49), bit i for vi. -/
def runDrops (ws : List IWord) : Nat := (runPart ws 3).getD 0 + (runPart ws 4).getD 0 * 65536

/-- The x-file range a run drops (R49): first word and count. -/
def runDropX (ws : List IWord) : Option (Nat × Nat) :=
  (runPart ws 5).map fun p => (p / 4096 % 1024, p / 4 % 1024 + 1)

/-- The run's own checks for a thread of a kernel, in the order of R44. -/
def runFault (h : Header) (ws : List IWord) : Option FaultInfo :=
  if runBad h.ver ws then some illegalOpcode
  else
    let bad := runDrops ws / 2 ^ h.nreg
    if bad ≠ 0 then some (illegalOperand 3 (0x10 + h.nreg + lowBit 32 bad))
    else match runDropX ws with
      | some (f, c) => if f + c > h.xsize then some (xBounds (wd (max f h.xsize))) else none
      | none => none

/-- The run's registers and x-file words become dead in a thread (R27). -/
def Thread.drop (th : Thread) (ws : List IWord) : Thread :=
  let th := { th with vdead := th.vdead ||| BitVec.ofNat 32 (runDrops ws) }
  match runDropX ws with
  | none => th
  | some (f, c) =>
    { th with x := th.x.zipIdx.map fun p => if f ≤ p.2 && p.2 < f + c then { p.1 with dead := true } else p.1 }

/-! ### Sources (R38, R40) -/

/-- A selector that names a register. -/
def selV (x : BitVec 7) : Option Nat := if 0x10 ≤ x.toNat ∧ x.toNat ≤ 0x2F then some (x.toNat - 0x10) else none

/-- A selector that pops a hardware queue. -/
def selW (x : BitVec 7) : Option Nat := if 0x50 ≤ x.toNat ∧ x.toNat ≤ 0x57 then some (x.toNat - 0x50) else none

/-- A destination that pushes a hardware queue. -/
def dstW (d : BitVec 6) : Option Nat := if 0x30 ≤ d.toNat ∧ d.toNat ≤ 0x37 then some (d.toNat - 0x30) else none

/-- A selector is ILLEGAL_OPERAND for a kernel (R38, R40, R53). -/
def selIllegal (h : Header) (himm : Option Word) (x : BitVec 7) : Bool :=
  let n := x.toNat
  if n < 0x10 then false
  else if n < 0x30 then h.nreg ≤ n - 0x10
  else if n < 0x50 then h.ver < 2 && 0x40 ≤ n
  else if n < 0x58 then h.ver < 2 || !h.qmask.getLsbD (n - 0x50)
  else if n == 0x5B then himm.isNone
  else 0x5C < n

/-- A destination code is ILLEGAL_OPERAND for a kernel (R39, R40, R53). -/
def dstIllegal (h : Header) (d : BitVec 6) : Bool :=
  let n := d.toNat
  if n < 3 then false
  else if n < 0x10 then true
  else if n < 0x30 then h.nreg ≤ n - 0x10
  else if n < 0x38 then h.ver < 2 || !h.qmask.getLsbD (n - 0x30)
  else true

/-- A source is dead: a dead named register, or an invalid latch (R18, R25). -/
def Thread.selDead (th : Thread) (x : BitVec 7) : Bool :=
  match selV x with
  | some n => th.vdead.getLsbD n
  | none => if x.toNat == 0x58 then th.b0.isNone else if x.toNat == 0x59 then th.b1.isNone else false

/-- The word that entry `j` of a hardware queue holds. -/
def State.queueWord (s : State) (t : Team) (q : Queue) (j : Nat) : Word := wd (s.readNat (queueLoc t q j) 8)

/-- The value of a source (R38), `popped` entries of its queue having been taken by earlier sources. -/
def State.readSel (s : State) (sid : Nat) (th : Thread) (t : Team) (himm : Option Word) (popped : Nat) (x : BitVec 7) :
    Val :=
  let n := x.toNat
  if n < 0x10 then vget th.q n (.known 0)
  else if n < 0x30 then vget th.v (n - 0x10) (.known 0)
  else if n < 0x50 then .known (vget t.k (n - 0x30) 0)
  else if n < 0x58 then
    let q := t.queue (n - 0x50)
    match q.entries[popped]? with
    | some e => match e.tok with
      | some k => .pend k
      | none => .known (s.queueWord t q (q.head + popped))
    | none => .known 0xFFFFFFFFFFFFFFFF#64
  else if n == 0x58 then th.b0.getD (.known 0)
  else if n == 0x59 then th.b1.getD (.known 0)
  else if n == 0x5B then .known (himm.getD 0)
  else if n == 0x5C then .known (wd (sidLane sid))
  else .known 0

/-! ### Hardware-queue operands (R156, R157) -/

/-- What an instruction's queue operands come to. -/
inductive QueueCheck where
  | ok
  | block (mask : BitVec 8)
  | wait
  | off (a : Word)
deriving DecidableEq, Repr

/-- How often queue `n` stands in a list of queues. -/
def timesIn (n : Nat) (l : List Nat) : Nat := (l.filter fun x => x == n).length

/-- The pops of a list, in order, each after the earlier ones: a pending entry or a stamp waits (R150), before all else;
empty and open blocks; a dead segment is BANK_OFF. -/
def State.checkPops (s : State) (t : Team) (mask : BitVec 8) : List Nat → List Nat → QueueCheck
  | [], _ => .ok
  | n :: r, before =>
    let q := t.queue n
    let j := timesIn n before
    let rest := s.checkPops t mask r (n :: before)
    match q.entries[j]? with
    | none => if q.closed then rest else if rest = .wait then .wait else .block mask
    | some e =>
      let here : QueueCheck :=
        if e.tok.isSome then .wait
        else if !q.nostamp && (s.core t.core).cw t.bank < e.stamp then .wait
        else if s.deadRange (queueLoc t q (q.head + j)) 8 then
          .off (((s.ctx t.ctx).shrbase) + wd (q.base + 8 * ((q.head + j) % 2 ^ q.logCap)))
        else .ok
      match here, rest with
      | .wait, _ => .wait
      | _, .wait => .wait
      | _, .block m => .block m
      | .ok, x => x
      | x, _ => x

/-- The queue operands of one thread (R156): pops of its sources in order and pushes after them. `more`: pushes that lower
lanes of a collective have still to make to its destination (R162). -/
def State.queueCheck (s : State) (t : Team) (pops pushes : List Nat) (more : Nat) : QueueCheck :=
  let mask : BitVec 8 := (pops ++ pushes).foldl (fun m n => m ||| BitVec.ofNat 8 (2 ^ n)) 0
  match s.checkPops t mask pops [] with
  | .wait => .wait
  | .block m => .block m
  | x =>
    if (pops ++ pushes).any (fun n => !(t.queue n).init) then .block mask
    else if pushes.any (fun n => 2 ^ (t.queue n).logCap < (t.queue n).entries.length
          - timesIn n pops + timesIn n pushes + more) then .block mask
    else x

/-- A pop of a word reaches an entry that a lower lane of the same issue has pushed and that no earlier word's writes
and values make ready: it holds a pending value, or the stamp of a write of this issue. `base`: the state before the
issue. (Log 62.) -/
def ownPush (base : State) (tid : Nat) (t : Team) (pops : List Nat) : Bool :=
  pops.zipIdx.any fun p =>
    let q := t.queue p.1
    let j := timesIn p.1 (pops.take p.2)
    let old := ((tget base.teams tid).map fun t => (t.queue p.1).tail).getD 0
    match q.entries[j]? with
    | none => false
    | some e => decide (old ≤ q.head + j)
        && (e.tok.isSome || (!q.nostamp && decide (vget (base.core t.core).iw t.bank 0 < e.stamp)))

/-! ### Destinations (R14, R39) -/

/-- The result queue with a value pushed (R14). -/
def pushQ (q : Vector Val 16) (v : Val) : Vector Val 16 :=
  Vector.ofFn fun i : Fin 16 => if i.val = 0 then v else vget q (i.val - 1) (.known 0)

/-- WriteDst for an on thread (R14), the hardware-queue push apart. -/
def Thread.write (th : Thread) (d : BitVec 6) (v : Val) : Thread :=
  let th := if d.toNat == 1 || d.toNat == 2 then th else { th with q := pushQ th.q v }
  let th := if d.toNat == 2 then th else { th with b1 := th.b0, b0 := some v }
  if 0x10 ≤ d.toNat ∧ d.toNat < 0x30 then
    { th with v := vset th.v (d.toNat - 0x10) v, vdead := th.vdead &&& ~~~(BitVec.ofNat 32 (2 ^ (d.toNat - 0x10))) }
  else th

/-- WriteDst for an off thread (R14): q0 and b0 keep their values. -/
def Thread.writeOff (th : Thread) (d : BitVec 6) : Thread :=
  let th := if d.toNat == 1 || d.toNat == 2 then th else { th with q := pushQ th.q (vget th.q 0 (.known 0)) }
  if d.toNat == 2 then th else { th with b1 := th.b0 }

/-- The words of a slot that WriteDst to a code writes (R11, R14): the result queue, a named register. -/
def dstWords (d : BitVec 6) : List Nat :=
  (if d.toNat == 1 || d.toNat == 2 then [] else List.range 16) ++ if 0x10 ≤ d.toNat ∧ d.toNat < 0x30 then [d.toNat] else []

/-- WriteDst for an on thread (R14), the push to a hardware queue with its stamp included (R157). -/
def State.writeDst (s : State) (sid : Nat) (d : BitVec 6) (v : Val) : State :=
  let s := s.updThread sid fun th => th.write d v
  match dstW d, tget s.threads sid with
  | some n, some th => s.pushQueue th.team n (vget (s.core (sidCore sid)).iw (sidBank sid) 0) v
  | _, _ => s

/-! ### Running a word over its group -/

/-- The fixed facts of an instruction's form. -/
structure Form where
  guard : BitVec 3
  /-- sources: position and selector, in the order of R44 -/
  srcs : List (Nat × BitVec 7) := []
  dst : Option (BitVec 6) := none
  /-- number of WriteDst to the destination -/
  pushes : Nat := 1
  /-- a field of the word breaks R42 or R43 -/
  illegal : Bool := false
  minVer : Nat := 1
  /-- fields of `hmod` that are accepted, as a mask of its payload -/
  mods : Nat := 0
  /-- `hmod` and `himm` words are refused altogether (R98) -/
  noHmod : Bool := false
  noHimm : Bool := false
  priv : Bool := false
  /-- not allowed inside a latch window (R20) -/
  windowBan : Bool := false
  /-- a control instruction (R98) -/
  control : Bool := false
  /-- a lane-collective instruction (R162) -/
  collective : Bool := false
  /-- sources that may be pending -/
  raw : List Nat := []
  /-- an engine, not the thread, pushes a hardware queue of the destination (R161) -/
  enginePush : Bool := false
  /-- operand checks before the sources', and after the destination's (R44 step 4) -/
  pre : Header → Option FaultInfo := fun _ => none
  post : Header → Option FaultInfo := fun _ => none

/-- What one on thread's lane sees. -/
structure Lane where
  sid : Nat
  tid : Nat
  thread : Thread
  team : Team
  pc : Word
  saved : Word
  vals : List Val
  w : List Word
  mods : Mods
  /-- values of the contributing lanes, for a collective: slot key and sources (R162) -/
  peers : List (Nat × List Word)
  /-- the group holds a thread in each of the 32 lanes and all are on (R163) -/
  whole : Bool
  /-- clock at which its word began to issue -/
  began : Nat

/-- Source `i` as a word. -/
def Lane.src (l : Lane) (i : Nat) : Word := l.w.getD i 0

/-- What a lane does. -/
inductive LaneOut where
  /-- effects done, values for WriteDst in order -/
  | ok (s : State) (out : List (BitVec 6 × Val))
  /-- as `ok`, and a record is posted while the thread runs on (R126) -/
  | note (s : State) (f : FaultInfo)
  /-- the thread goes on at another PC -/
  | goto (s : State) (tgt : Word)
  /-- the thread has left its group -/
  | gone (s : State)
  /-- the instruction completes with a record, and the thread halts with a resume PC (R107, R108) -/
  | halts (s : State) (f : FaultInfo) (resume : Word)
  | fault (f : FaultInfo)
  | block (w : Wait)
  /-- the word waits at issue -/
  | hold
  /-- the word waits at issue for an answer from another device, and this much happens meanwhile (R381) -/
  | send (f : State → State)

/-- The guard of a thread (R21, R37). -/
def Thread.guard (th : Thread) (g : BitVec 3) : Bool := g.toNat == 0 || th.preds.getLsbD g.toNat

/-- Steps 1 to 5 of R44 for an on thread. A hint word in a latch window is LATCH_WINDOW for on threads, and not for the
threads that the guard turns off. (DESIGN CHOICE: log 68) -/
def Form.check (f : Form) (h : Header) (th : Thread) (priv inWindow : Bool) (run : List IWord) : Option FaultInfo :=
  let himm := runHimm run
  let hm := runPart run 1
  if f.illegal || h.ver < f.minVer || (hm.getD 0) &&& (2 ^ 22 - 1 - f.mods) != 0 || (f.noHmod && hm.isSome)
      || (f.noHimm && himm.isSome) then some illegalOpcode
  else if f.priv && !priv then some (protection 0)
  else if inWindow && (f.windowBan || !run.isEmpty || f.srcs.any (fun x => (selW x.2).isSome)
      || (f.dst.bind dstW).isSome) then some latchWindow
  else
    match f.pre h with
    | some e => some e
    | none =>
      match f.srcs.find? fun x => selIllegal h himm x.2 with
      | some (p, x) => some (illegalOperand p x.toNat)
      | none =>
        match f.dst with
        | some d => if dstIllegal h d then some (illegalOperand 3 d.toNat) else
            match f.post h with
            | some e => some e
            | none => (f.srcs.find? fun x => th.selDead x.2).map fun x => deadRegister x.1 x.2.toNat
        | none =>
            match f.post h with
            | some e => some e
            | none => (f.srcs.find? fun x => th.selDead x.2).map fun x => deadRegister x.1 x.2.toNat

/-- The values of the sources, in order, with the pops each queue has made before. -/
def State.readSrcs (s : State) (sid : Nat) (th : Thread) (t : Team) (himm : Option Word) :
    List (Nat × BitVec 7) → List Nat → List Val
  | [], _ => []
  | (_, x) :: r, before =>
    match selW x with
    | some n => s.readSel sid th t himm (timesIn n before) x :: s.readSrcs sid th t himm r (n :: before)
    | none => s.readSel sid th t himm 0 x :: s.readSrcs sid th t himm r before

/-- A value as a word; a pending one as zero. -/
def Val.word : Val → Word
  | .known w => w
  | .pend _ => 0

/-- A value is pending. -/
def Val.isPend : Val → Bool
  | .known _ => false
  | .pend _ => true

/-- The pops a form makes, in order. -/
def Form.pops (f : Form) : List Nat := f.srcs.filterMap fun x => selW x.2

/-- The words of a slot that an on thread's sources read (R11). -/
def Form.reads (f : Form) : List Nat :=
  f.srcs.filterMap fun x => if x.2.toNat < 16 then some x.2.toNat else (selV x.2).map (16 + ·)

/-- The words of a slot that an off thread reads and writes (R14): the result queue, where the word pushes it. -/
def Form.offWords (f : Form) : List Nat :=
  match f.dst with
  | some d => if f.pushes = 0 || d.toNat == 1 || d.toNat == 2 then [] else List.range 16
  | none => []

/-- The words of a slot that a word uses which writes `out`. -/
def Form.uses (f : Form) (out : List (BitVec 6 × Val)) : List Nat := f.reads ++ out.flatMap fun o => dstWords o.1

/-- An on thread's word waits on the scoreboard: a source that must be known is pending (R150). A dead source holds no
pending value (R27). Pops are tested in lane order. -/
def Form.waitsFor (f : Form) (s : State) (sid : Nat) (th : Thread) (t : Team) (run : List IWord) : Bool :=
  (s.readSrcs sid th t (runHimm run) f.srcs []).zipIdx.any fun p =>
    p.1.isPend && !((f.srcs[p.2]?).any fun x => th.selDead x.2) && !f.raw.contains p.2 && ((f.srcs[p.2]?).bind fun x => selW x.2).isNone

/-- A thread of a group keeps its word from issuing (R150). -/
def Form.notIssuable (f : Form) (s : State) (g : Group) (sid : Nat) : Bool :=
  match tget s.threads sid, s.teamOf sid with
  | some th, some t => th.guard f.guard && f.waitsFor s sid th t g.run
  | _, _ => false

/-- The pushes a form makes to hardware queues. -/
def Form.queuePushes (f : Form) : List Nat :=
  match f.dst.bind dstW with
  | some n => if f.enginePush then [] else List.replicate f.pushes n
  | none => []

/-- What has come of the group so far while a word runs. -/
structure Acc where
  s : State
  /-- the state if the word waits -/
  base : State
  /-- threads that stay, with their next PC -/
  stay : List (Nat × Word)
  faults : List (Nat × FaultInfo × Word)
  blocked : List Nat
  left : Bool
  held : Bool
  /-- the wait follows on what lower lanes of the same issue have done, which they keep -/
  own : Bool
  /-- threads that have had their turn -/
  done : List Nat
  /-- writes of a collective, made after every lane has read (R162) -/
  late : List (Nat × Nat × BitVec 6 × Val)
  /-- words of slots that the lanes have read and written (R28) -/
  used : List (Nat × List Nat)

/-- What has come of a group before its word's first lane, or of the lanes that have executed it. -/
def PartIssue.acc (p : PartIssue) (s0 base : State) : Acc :=
  { s := s0, base := base, stay := p.stay, faults := p.faults, blocked := p.blocked, left := p.left, held := false,
    own := false, done := p.done, late := [], used := [] }

/-- No lane has executed the word. -/
def PartIssue.none' : PartIssue := { stay := [], faults := [], blocked := [], left := false, done := [], clk := 0 }

/-- The lanes that have executed the word so far. -/
def Acc.part (a : Acc) : PartIssue := { stay := a.stay, faults := a.faults, blocked := a.blocked, left := a.left, done := a.done, clk := 0 }

/-- A blocked thread leaves its group and keeps `saved` (R156). -/
def State.blockThread (s : State) (sid : Nat) (w : Wait) (saved : Word) : State :=
  (s.leaveGroup sid).updThread sid fun th => { th with cond := .blocked w, pc := saved, b0 := none, b1 := none }

/-- What a `waitw` waits for: a destination that its hint run drops ends dead when it is written (R27). -/
def watchOf (d : BitVec 6) (lim : Option Nat) (run : List IWord) : Wait :=
  .watch d lim (runDrops run / 2 ^ (d.toNat - 0x10) % 2 == 1 && decide (0x10 ≤ d.toNat))

/-- The next pop of a word waits for a pending entry (R16). -/
def Team.popPends (t : Team) : List Nat → List Nat → Bool
  | [], _ => false
  | n :: r, before =>
    (((t.queue n).entries[timesIn n before]?).any fun e => e.tok.isSome) || t.popPends r (n :: before)

/-- One lane's turn (R14, R44, R156): off behaviour, checks, queue operands, its own action, pops and writes. -/
def Form.lane (f : Form) (act : Lane → State → LaneOut) (gid : Nat) (g : Group) (peers : List (Nat × List Word))
    (whole : Bool) (s0 : State) (a : Acc) (sid : Nat) : Acc :=
  if a.held then a else
  match tget a.s.threads sid with
  | none => a
  | some th =>
    if th.cond ≠ .inGroup gid then { a with left := true } else
    match tget a.s.teams th.team with
    | none => a
    | some t =>
      let next := g.pc + 4
      let more := (a.late.filter fun w => w.2.1 == th.team).length
      if th.guard f.guard && a.s.queueCheck t f.pops f.queuePushes more = .wait then
        let sc := t.popPends f.pops []
        { a with s := { a.s with scored := sc }, base := { a.base with scored := sc }, held := true,
                 own := !a.done.isEmpty && ownPush s0 th.team t f.pops }
      else
      match runFault t.hdr g.run with
      | some e => { a with faults := a.faults ++ [(sid, e, g.runPc)], left := true }
      | none =>
        if !th.guard f.guard then
          let s := match f.dst with
            | some d => (List.range f.pushes).foldl (fun (s : State) _ => s.updThread sid fun th => th.writeOff d) a.s
            | none => a.s
          { a with s := s, stay := a.stay ++ [(sid, next)], used := a.used ++ [(sid, f.offWords)] }
        else
          match f.check t.hdr th (a.s.ctx t.ctx).priv g.window.isSome g.run with
          | some e => { a with faults := a.faults ++ [(sid, e, g.runPc)], left := true }
          | none =>
            match a.s.queueCheck t f.pops f.queuePushes more with
            | .block m =>
              { a with s := a.s.blockThread sid (.queue m) g.runPc, blocked := sid :: a.blocked, left := true }
            | .wait => { a with held := true }
            | .off e => { a with faults := a.faults ++ [(sid, bankOff e, g.runPc)], left := true }
            | .ok =>
              let vals := a.s.readSrcs sid th t (runHimm g.run) f.srcs []
              let l : Lane :=
                { sid := sid, tid := th.team, thread := th, team := t, pc := g.pc, saved := g.runPc, vals := vals,
                  w := vals.map Val.word, mods := Mods.of ((runPart g.run 1).getD 0), peers := peers,
                  whole := whole, began := (g.part.map PartIssue.clk).getD a.s.clk }
              let pop := fun s : State => f.pops.foldl (fun s n => s.popQueue th.team n) s
              match act l a.s with
              | .ok s out =>
                let a := { a with stay := a.stay ++ [(sid, next)], used := a.used ++ [(sid, f.uses out)] }
                if f.collective then { a with s := pop s, late := a.late ++ out.map fun o => (sid, th.team, o) }
                else { a with s := out.foldl (fun s o => s.writeDst sid o.1 o.2) (pop s) }
              | .note s e =>
                { a with s := pop s, stay := a.stay ++ [(sid, next)], faults := a.faults ++ [(sid, e, next)],
                         used := a.used ++ [(sid, f.reads)] }
              | .goto s tgt => { a with s := pop s, stay := a.stay ++ [(sid, tgt)], used := a.used ++ [(sid, f.reads)] }
              | .gone s => { a with s := pop s, left := true, used := a.used ++ [(sid, f.reads)] }
              | .halts s e resume =>
                { a with s := pop s, faults := a.faults ++ [(sid, e, resume)], left := true,
                         used := a.used ++ [(sid, f.reads)] }
              | .fault e => { a with faults := a.faults ++ [(sid, e, g.runPc)], left := true }
              | .block w =>
                match w with
                | .watch d lim _ =>
                  { a with s := (pop a.s).blockThread sid (watchOf d lim g.run) next, left := true, used := a.used ++ [(sid, f.reads)] }
                | _ => { a with s := a.s.blockThread sid w g.runPc, blocked := sid :: a.blocked, left := true }
              | .hold => { a with held := true }
              | .send h =>
                if a.done.isEmpty then { a with held := true, base := h a.base }
                else { a with s := h a.s, held := true, own := true }

/-- The values that the contributing lanes of a collective read (R162 step 1): pops in lane order, each against the
queues as the lower lanes leave them. A lane whose thread faults in this word, or blocks on a queue, contributes nothing.
(DESIGN CHOICE: log 68) -/
def Form.gather (f : Form) (gid : Nat) (g : Group) (before : List Nat) : State → List Nat → List (Nat × List Word)
  | _, [] => []
  | s, sid :: r =>
    match tget s.threads sid with
    | none => f.gather gid g before s r
    | some th =>
      match tget s.teams th.team with
      | none => f.gather gid g before s r
      | some t =>
        if (runFault t.hdr g.run).isSome || !th.guard f.guard || th.cond ≠ .inGroup gid
            || (f.check t.hdr th (s.ctx t.ctx).priv g.window.isSome g.run).isSome
            || s.queueCheck t f.pops f.queuePushes (f.pushes * timesIn th.team before) ≠ .ok then f.gather gid g before s r
        else
          (sid, (s.readSrcs sid th t (runHimm g.run) f.srcs []).map Val.word)
            :: f.gather gid g (th.team :: before) (f.pops.foldl (fun s n => s.popQueue th.team n) s) r

/-- The teams of threads. -/
def State.issuers (s : State) (sids : List Nat) : List Nat :=
  (sids.filterMap fun x => (tget s.threads x).map Thread.team).eraseDups

/-- The contexts of teams that are being captured, each once. -/
def State.captured (s : State) (teams : List Nat) : List Nat :=
  ((teams.filterMap fun t => (tget s.teams t).map Team.ctx).eraseDups).filter fun c => (s.ctx c).capturing

/-- An issue is charged once to every team that has a thread in the issuing group (R34, R109); the capture count of every
context of theirs advances by the one word (R361). (DEDUCED: log 11) -/
def State.charge (s : State) (teams : List Nat) : State :=
  let s := (s.captured teams).foldl (fun s c => s.updCtx c fun c => { c with capIssued := c.capIssued + 1 }) s
  teams.foldl (fun s t => s.updTeam t fun t => { t with issued := t.issued + 1 }) s

/-- The latch window after a word (R19): words still covered. -/
def Form.window (f : Form) : Option Nat → Option Nat
  | none => if f.dst = some 1 then some 4 else none
  | some n =>
    let readsLatch := f.srcs.any fun x => x.2.toNat == 0x58 || x.2.toNat == 0x59
    if (readsLatch && f.dst ≠ some 1) || n ≤ 1 then none else some (n - 1)

/-- Latches of threads become invalid. -/
def State.dropLatches (s : State) (sids : List Nat) : State :=
  sids.foldl (fun s sid => s.updThread sid fun th => { th with b0 := none, b1 := none }) s

/-- After a word: drops, the next PCs, splits at a control instruction (R100, R101), the rotation (R148), delay and
yield (R48), the latch window, the issue slot. A window goes on for the threads that stay (R20); one that is open when
`bkpt.stop` stops the core keeps its latches (R357), which any other departure at a control word invalidates (R100).
DELAY and YIELD are the issuing group's: they stay with the group that falls through, and the groups that a split forms
have none. (DEDUCED: log 11) (DESIGN CHOICE: log 56) (DESIGN CHOICE: log 68) -/
def Form.settle (f : Form) (gid : Nat) (g : Group) (a : Acc) : State :=
  let done := g.threads.filter fun x => !a.blocked.contains x && !a.faults.any fun f => f.1 == x && f.2.2 == g.runPc
  let s := done.foldl (fun s x => s.updThread x fun th => th.drop g.run) a.s
  let s := s.updCore g.core fun c =>
    { c with rotation := if c.rotation.contains gid then c.rotation.erase gid ++ [gid] else c.rotation,
             lastGroup := some gid, holder := none }
  match tget s.groups gid with
  | none => s
  | some g' =>
    let stay := a.stay.filter fun p => g'.threads.contains p.1
    let fall := (stay.filter fun p => decide (p.2 = g.pc + 4)).map Prod.fst
    let tgts := ((stay.filter fun p => decide (p.2 ≠ g.pc + 4)).map Prod.snd).eraseDups
    let one := tgts.length + (if fall.isEmpty then 0 else 1) ≤ 1
    let pc := if fall.isEmpty then tgts.headD (g.pc + 4) else g.pc + 4
    let kept := if one then stay.map Prod.fst else fall
    let sch := (runPart g.run 2).getD 0
    let delay := sch / 2 ^ 17 % 16
    let win := f.window g.window
    let prio := a.base.groupPrio g
    let g2 : Group :=
      { g' with pc := pc, threads := kept, part := none, run := [], runPc := pc, window := win, mark := 0, wasReady := false,
                prio := if one then g'.prio else prio,
                from' := s.clk + 1, yielded := sch / 2 ^ 21 == 1,
                delayUntil := if delay = 0 then 0 else s.clk + 1 + delay }
    let s := if f.control && (!one || a.left) && !(g.window.isSome && (s.core g.core).stop.stopped) then s.dropLatches (stay.map Prod.fst) else s
    let s := kept.foldl (fun s sid => s.updThread sid fun th => { th with pc := pc }) s
    let s := if kept.isEmpty then
        { s with groups := tdel s.groups gid }.updCore g.core fun c => { c with rotation := c.rotation.erase gid }
      else { s with groups := tset s.groups gid g2 }.updCore g.core fun c =>
        { c with holder := if win.isSome then some gid else none }
    if one then s else
      tgts.foldl (fun s tgt =>
        s.newGroup g.core g.bank tgt ((stay.filter fun p => decide (p.2 = tgt)).map Prod.fst) (s.clk + 1) prio) s

/-- The end of a word: `a` is what the lanes came to, `s` the state that the word found. The group's bookkeeping and the
charge to every team that has a thread in the group (R34, R109), then the precise faults in lane order (R110, R112). A
word that a lane must wait for changes nothing and is marked as stalled. Where a lane waits for what a lower lane of the
same issue has begun, the lanes before it keep their effects, the group holds the issue slot, and the rest of the word
follows once the wait is over. (DESIGN CHOICE: log 12) (DEDUCED: log 11) -/
def Form.finish (f : Form) (gid : Nat) (g : Group) (s : State) (a : Acc) : Host.Outcome State Fault Refusal :=
  let s1 := a.late.foldl (fun (s : State) (w : Nat × Nat × BitVec 6 × Val) => s.writeDst w.1 w.2.2.1 w.2.2.2) a.s
  let a := { a with s := a.used.foldl (fun (t : State) (u : Nat × List Nat) => t.touchOf s u.1 u.2) s1 }
  let charged := if g.part.isSome then [] else s.issuers g.threads
  if a.held && a.own then
    .next { ((a.s.charge charged).updGroup gid fun g =>
      { g with part := some { a.part with clk := (g.part.map PartIssue.clk).getD s.clk } }).updCore g.core fun c =>
      { c with holder := some gid } with stalled := true }
  else if a.held then .next { a.base with stalled := true }
  else .next { (((f.settle gid g a).charge charged).raiseAll g.pc a.faults) with stalled := false }

/-- Running a word of a form over the issuing group: every lane in increasing order, then the word's end. With no group at
the issue slot nothing happens. (DESIGN CHOICE: log 7) (DEDUCED: log 11) -/
def Form.run (f : Form) (act : Lane → State → LaneOut) (s : State) : Host.Outcome State Fault Refusal :=
  match s.issuing with
  | none => .next s
  | some gid =>
    match tget s.groups gid with
    | none => .next s
    | some g =>
      let s0 := if (s.core g.core).lastGroup = some gid || g.part.isSome then s else s.dropLatches g.threads
      if g.part.isNone && g.threads.any (f.notIssuable s0 g) then .next { s with stalled := true, scored := true } else
      let peers := if f.collective then f.gather gid g [] s0 g.threads else []
      let on := fun sid => (tget s0.threads sid).any fun th => th.guard f.guard
      let whole := g.threads.length == 32 && g.threads.all on
      let p := g.part.getD .none'
      let turn := fun (a : Acc) (sid : Nat) =>
        let b := f.lane act gid g peers whole s0 a sid
        if b.held then b else { b with done := sid :: b.done }
      f.finish gid g s ((g.threads.filter fun x => !p.done.contains x).foldl turn (p.acc s0 s))

/-- A form whose action needs only its sources and gives one value, known at once. -/
def Form.value (f : Form) (op : Lane → Word) (s : State) : Host.Outcome State Fault Refusal :=
  f.run (fun l s => .ok s [(f.dst.getD 0, .known (op l))]) s

/-- A form whose action writes one predicate (R21). -/
def Form.pred (f : Form) (p : BitVec 3) (op : Lane → Bool) (s : State) : Host.Outcome State Fault Refusal :=
  f.run (fun l s => .ok (s.updThread l.sid fun th =>
    { th with preds := if op l then th.preds ||| BitVec.ofNat 8 (2 ^ p.toNat)
                       else th.preds &&& ~~~(BitVec.ofNat 8 (2 ^ p.toNat)) }) []) s

/-- A hint word is gathered into the group's run (R45): it takes an issue slot and is charged. Inside an open window
it is not one of the four instructions covered (R19): only consumers are counted. (DESIGN CHOICE: log 68) -/
def State.gatherHint (s : State) (w : IWord) : Host.Outcome State Fault Refusal :=
  match s.issuing with
  | none => .next s
  | some gid =>
    match tget s.groups gid with
    | none => .next s
    | some g =>
      let s := if (s.core g.core).lastGroup = some gid then s else s.dropLatches g.threads
      let g2 := { g with pc := g.pc + 4, run := g.run ++ [w], runPc := if g.run.isEmpty then g.pc else g.runPc, mark := 0 }
      let s := { s with groups := tset s.groups gid g2 }
      let s := g.threads.foldl (fun s sid => s.updThread sid fun th => { th with pc := g.pc + 4 }) s
      let s := s.updCore g.core fun c => { c with holder := some gid, lastGroup := some gid }
      .next { (s.charge (s.issuers g.threads)) with stalled := false }

end Sys2Proof.Machine
end

