-- ==== Sys2Proof/Machine/Flags.lean ====
section
/-! DEFINITION. Predicates, the machine's flags (R21): the conditions of `icmp` (R86), `vote` (R166), `isap` (R116), the
table of `plop` (R88), and the fields of `hmod` each family accepts (R77). The float conditions of R87 stand with the
float formats. -/

namespace Sys2Proof.Machine

/-- Fields of `hmod` (R47) as masks of its payload. -/
def mRnd : Nat := 0x300000

/-- SAT. -/
def mSat : Nat := 0x80000

/-- FTZ. -/
def mFtz : Nat := 0x40000

/-- NEG and ABS of source a. -/
def mA : Nat := 0x9000

/-- NEG and ABS of sources a and b. -/
def mAB : Nat := 0x1B000

/-- NEG and ABS of sources a, b and c. -/
def mABC : Nat := 0x3F000

/-- SCOPE. -/
def mScope : Nat := 0xE00

/-- CACHE. -/
def mCache : Nat := 0x180

/-- TRAP. -/
def mTrap : Nat := 0x40

/-- The condition of `icmp` (R86) on operands of `n` bits read as integers. -/
def icmpCond (k : BitVec 3) (n : Nat) (x y : Int) : Bool :=
  match k.toNat with
  | 0 => x == y
  | 1 => x != y
  | 2 => decide (x < y)
  | 3 => decide (x ≤ y)
  | 4 => decide (y < x)
  | 5 => decide (y ≤ x)
  | _ => ((wi x).toNat % 2 ^ n) &&& ((wi y).toNat % 2 ^ n) != 0

/-- The outcome of `vote` (R166) over the truth values of the contributing lanes, lowest lane first. -/
def voteCond (k : BitVec 3) (cs : List Bool) : Bool :=
  match k.toNat with
  | 0 => cs.any id
  | 1 => cs.all id
  | 2 => !cs.any id
  | 3 => cs.all id || !cs.any id
  | _ => cs.headD false

/-- The condition of `isap` (R116); `size` is the team's allocation in bytes. -/
def isapCond (c : CtxSt) (size : Nat) (k : BitVec 3) (a : Word) : Bool :=
  let owner := a.toNat / 2 ^ 56
  match k.toNat with
  | 0 => (c.window a).any fun w => decide (w.1 = .loc)
  | 1 => (c.window a).any fun w => decide (w.1 = .shared)
  | 2 => (c.window a).any fun w => decide (w.1 = .cluster)
  | 3 => owner == 0 && (c.window a).isNone
  | 4 => owner != 0 && owner != 255
  | 5 => owner == 0
  | _ => (c.window a).any fun w => decide (w.1 = .shared) && decide (w.2 < size)

/-- `plop`: the entry of the table that two predicates select (R88). -/
def plopCond (lut : BitVec 4) (pa pb : Bool) : Bool := lut.getLsbD (2 * boolNat pa + boolNat pb)

/-- A predicate of a thread: p0 reads true (R21). -/
def Thread.pred (th : Thread) (p : BitVec 3) : Bool := p.toNat == 0 || th.preds.getLsbD p.toNat

end Sys2Proof.Machine
end

