-- ==== Sys2Proof/Machine/Timeline.lean ====
section
/-! DEFINITION. Timelines by engine-context number (R267) and by a team's index (R138). -/

namespace Sys2Proof.Machine

/-- A number names an engine context of the context (R267): its class has it, and system software has enabled it. -/
def State.namesEctx (s : State) (ctx n : Nat) : Bool :=
  let i := n % 4096
  !(s.ctx ctx).ectxOff.contains n &&
    match n / 4096 with
    | 0 => i < 64
    | 1 => i < 4
    | 2 => i < 24 && (s.ctx ctx).part.getLsbD i
    | 3 => i < 64
    | 4 => i < 256
    | _ => false

/-- The counter of an engine context's timeline. -/
def State.timeline (s : State) (ctx n : Nat) : Word :=
  let i := n % 4096
  match n / 4096 with
  | 0 => if i < 64 then (s.chain ctx i).done else 0
  | 1 => (s.chain ctx (64 + i)).done
  | 2 => tgetD (s.ctx ctx).rasterTl i 0
  | 3 => tgetD (s.ctx ctx).streamTl i 0
  | 4 => tgetD (s.ctx ctx).eventTl i 0
  | _ => 0

/-- A team's timeline `i` is bound: tl0 and tl1 always, the others by the header (R50, R138). -/
def tlBound (h : Header) (i : Nat) : Bool := i < 2 || (i < 16 && h.ectx.getD (i - 2) 0xFFFF != 0xFFFF)

/-- The counter of a team's timeline `i`: its Bruin queue, its ray queue, or the engine context the header binds. -/
def State.teamTimeline (s : State) (t : Team) (i : Nat) : Word :=
  match i with
  | 0 => wd t.bruin.done
  | 1 => wd t.rays.done
  | _ => s.timeline t.ctx (t.hdr.ectx.getD (i - 2) 0xFFFF)

/-- A timeline of a class advances to a value. -/
def State.setTimeline (s : State) (ctx n : Nat) (w : Word) : State :=
  let i := n % 4096
  match n / 4096 with
  | 0 => if i < 64 then s.updChain ctx i fun c => { c with done := w } else s
  | 1 => s.updChain ctx (64 + i) fun c => { c with done := w }
  | 2 => s.updCtx ctx fun c => { c with rasterTl := tset c.rasterTl i w }
  | 3 => s.updCtx ctx fun c => { c with streamTl := tset c.streamTl i w }
  | 4 => s.updCtx ctx fun c => { c with eventTl := tset c.eventTl i w }
  | _ => s

/-- A timeline is set to the maximum of its value and a new one (R192, R347). -/
def State.raiseTimeline (s : State) (ctx n : Nat) (w : Word) : State :=
  if (s.timeline ctx n).toNat < w.toNat then s.setTimeline ctx n w else s

/-- The tail of a chain is raised by the monotonic-maximum rule (R298). -/
def State.raiseTail (s : State) (ctx ch : Nat) (n : Word) : State :=
  s.updChain ctx ch fun c => { c with tail := if c.tail.toNat < n.toNat then n else c.tail, written := true }

/-- A `tail` reaches its chain (R137, R299): the write is complete once CHDONE has reached it, or at once while the
chain is disabled. -/
def State.tailWrite (s : State) (ctx ch : Nat) (w : TailWait) : State :=
  let c := s.chain ctx ch
  let s := s.raiseTail ctx ch w.n
  if !c.en || w.n.toNat ≤ c.done.toNat then s.completeWrite w.core w.bank w.wnum
  else s.updChain ctx ch fun c => { c with tails := c.tails ++ [w] }

/-- The tails of a chain that CHDONE has reached, or all of them when it is disabled, become complete (R299).
(DEDUCED: log 35) -/
def State.settleTails (s : State) (ctx ch : Nat) (all : Bool) : State :=
  let c := s.chain ctx ch
  let ready := c.tails.filter fun t => all || t.n.toNat ≤ c.done.toNat
  let s := ready.foldl (fun s t => s.completeWrite t.core t.bank t.wnum) s
  s.updChain ctx ch fun c => { c with tails := c.tails.filter fun t => !(all || t.n.toNat ≤ c.done.toNat) }

end Sys2Proof.Machine
end

