-- ==== Sys2Proof/Machine/Access.lean ====
section
/-! DEFINITION. The memory instructions: loads, stores, prefetch, atomics, fences, drains, watches, tails and timeline
waits (R117 to R139). -/

namespace Sys2Proof.Machine

/-- Bytes of an access size code (R36). -/
def szBytes (z : BitVec 2) : Nat := 2 ^ z.toNat

/-- The effective address (R117). -/
def effAddr (base : Word) (off : BitVec 4) (size : Nat) : Word := base + sx off * wd size

/-- Ordering of a load by its ord field (R117). -/
def loadOrd (r : BitVec 2) : Ord := match r.toNat with | 0 => .plain | 1 => .acquire | 2 => .sc | _ => .stream

/-- Ordering of a store by its ord field (R117). -/
def storeOrd (r : BitVec 2) : Ord := match r.toNat with | 0 => .plain | 1 => .release | 2 => .sc | _ => .stream

/-- An access that orders others: a plain or stream one does not (R117). -/
def Ord.orders (o : Ord) : Bool := decide (o ≠ .plain) && decide (o ≠ .stream)

/-- Fields of `hmod` that a load or store accepts (R119). -/
def memMods (r : BitVec 2) : Nat := match r.toNat with | 0 => mCache | 3 => 0 | _ => mScope + mCache

/-- An access of a lane, as it stands in flight. -/
def Lane.op (l : Lane) (ps : List Piece) (act : MemAct) (ord : Ord) (wnum : Option Nat) (logged : Bool) : MemOp :=
  { ctx := l.team.ctx, sid := l.sid, team := l.tid, core := sidCore l.sid, bank := sidBank l.sid, pc := l.pc,
    wid := l.thread.wid, pieces := ps, act := act, ord := ord, scope := BitVec.ofNat 3 l.mods.scope, wnum := wnum,
    logged := logged, got := [], retry := false, stuck := false, clk := l.began, awaited := [] }

/-- A load of a lane is issued (R122): its values are pending. `shape`: size and sign extension of each value. -/
def Lane.load (l : Lane) (s : State) (ea : Word) (size : Nat) (ord : Ord) (shape : List (Nat × Bool))
    (dsts : List (BitVec 6)) : LaneOut :=
  match s.access .mem false l.sid ea size .load ord.orders with
  | (_, .fault f) => .fault f
  | (_, .unmapped a _ _) => .fault (pageFault 0x0B a)
  | (s, .ok ps) =>
    let q := s.tokens shape.length
    let parts := (shape.zip q.2).map fun p => (p.1.1, p.1.2, p.2)
    let s := (q.1.addOp (l.op ps (.load parts) ord none false)).1
    .ok (s.owe l.sid l.pc q.2) (dsts.zip (q.2.map Val.pend))

/-- LD (R122). EXTRA of a fault numbers the address 0. (DESIGN CHOICE: log 68) -/
def execLd (g : BitVec 3) (d : BitVec 6) (a : BitVec 7) (o : BitVec 4) (sw : BitVec 2) (r : BitVec 2) (s : State) :
    Host.Outcome State Fault Refusal :=
  { guard := g, srcs := [(0, a)], dst := some d, mods := memMods r : Form }.run (fun l s =>
    let n := szBytes sw
    l.load s (effAddr (l.src 0) o n) n (loadOrd r) [(n, false)] [d]) s

/-- LDS (R122). -/
def execLds (g : BitVec 3) (d : BitVec 6) (a : BitVec 7) (o : BitVec 4) (sw : BitVec 2) (r : BitVec 2) (s : State) :
    Host.Outcome State Fault Refusal :=
  { guard := g, srcs := [(0, a)], dst := some d, illegal := sw == 3, mods := memMods r : Form }.run (fun l s =>
    let n := szBytes sw
    l.load s (effAddr (l.src 0) o n) n (loadOrd r) [(n, true)] [d]) s

/-- The destination of `ldq` names a register without a next one (R122). -/
def ldqPair (d : BitVec 6) (h : Header) : Option FaultInfo :=
  let n := d.toNat - 0x10
  if 0x10 ≤ d.toNat ∧ d.toNat < 0x30 ∧ (n = 31 ∨ h.nreg ≤ n + 1) then some (illegalOperand 3 d.toNat) else none

/-- The two destinations of `ldq` (R122). -/
def ldqDsts (d : BitVec 6) : List (BitVec 6) := if 0x10 ≤ d.toNat ∧ d.toNat < 0x30 then [d, d + 1] else [d, d]

/-- LDQ (R122). -/
def execLdq (g : BitVec 3) (d : BitVec 6) (a : BitVec 7) (o : BitVec 4) (r : BitVec 2) (s : State) :
    Host.Outcome State Fault Refusal :=
  { guard := g, srcs := [(0, a)], dst := some d, pushes := 2, mods := memMods r, post := ldqPair d : Form }.run
    (fun l s => l.load s (effAddr (l.src 0) o 16) 16 (loadOrd r) [(8, false), (8, false)] (ldqDsts d)) s

/-- A write is issued (R132): counted, its dead segments woken (R152), and in flight. -/
def Lane.issue (l : Lane) (s : State) (ps : List Piece) (act : MemAct) (ord : Ord) (logged : Bool) : State :=
  let q := s.issueWrite (sidCore l.sid) (sidBank l.sid)
  let woke := ps.any fun p => p.mapped && s.deadRange p.place p.len
  let s := ps.foldl (fun s p => if p.mapped then s.wakeRange p.place p.len else s) q.1
  let r := s.addOp { l.op ps act ord (some q.2) logged with woke := woke }
  if logged then r.1.updCore (sidCore l.sid) fun c => { c with sideLog := c.sideLog ++ [r.2] } else r.1

/-- The write of a thread that waits at issue for its owner's answer (R381). -/
def State.sentBy (s : State) (l : Lane) : Option (Nat × MemOp) :=
  s.ops.find? fun p => p.2.sid == l.sid && p.2.team == l.tid && p.2.wid == l.thread.wid && p.2.pc == l.pc
    && !p.2.logged && p.2.wnum.isSome && p.2.pieces.any fun q => q.path == .remote

/-- A write of a lane to another device (R381): a plain one takes a side-log entry; a release or sc one, and one to an SO
page, holds the thread until its answer has come. -/
def Lane.storeRemote (l : Lane) (s : State) (ps : List Piece) (ord : Ord) (act : MemAct) : LaneOut :=
  if !ord.orders && !(ps.flatMap Piece.kinds).contains .so then
    if 64 ≤ (s.core (sidCore l.sid)).sideLog.length then .hold
    else
      let s := l.issue s ps act ord true
      .ok { s with ops := tupd s.ops (s.fresh - 1) fun o => { o with retry := true } } []
  else
    match s.sentBy l with
    | none => .send fun s => l.issue s ps act ord false
    | some (id, o) =>
      if o.got.isEmpty then .hold
      else
        let s := { s with ops := tdel s.ops id }
        .ok (match o.wnum with | some n => s.completeWrite o.core o.bank n | none => s) []

/-- A write of a lane without a returned value: performed, logged on an unmapped page, or held there (R123, R126,
R127). -/
def Lane.store (l : Lane) (s : State) (ea : Word) (size : Nat) (ord : Ord) (k : AccKind) (ordered : Bool) (act : MemAct) :
    LaneOut :=
  match s.access .mem false l.sid ea size k ordered with
  | (_, .fault f) => .fault f
  | (s', .unmapped a so ps) =>
    if so || ord.orders || 64 ≤ (s.core (sidCore l.sid)).sideLog.length then .fault (pageFault 0x0C a)
    else .note (l.issue s' ps act ord true)
      { code := 0x0C, cls := .note, addr := a, extra := 0, replay := false }
  | (s, .ok ps) =>
    if ps.any fun p => p.path == .remote then l.storeRemote s ps ord act else .ok (l.issue s ps act ord false) []

/-- ST (R123). EXTRA of a fault numbers the data 0 and the address 1. (DESIGN CHOICE: log 68) -/
def execSt (g : BitVec 3) (x a : BitVec 7) (o : BitVec 4) (sw : BitVec 2) (r : BitVec 2) (s : State) :
    Host.Outcome State Fault Refusal :=
  { guard := g, srcs := [(0, x), (1, a)], mods := memMods r : Form }.run (fun l s =>
    let n := szBytes sw
    let ord := storeOrd r
    l.store s (effAddr (l.src 1) o n) n ord .store ord.orders (.store (leBytes n (l.src 0).toNat))) s

/-- `stq` names anything but a register with a next one (R36). -/
def stqPair (x : BitVec 7) (h : Header) : Option FaultInfo :=
  match selV x with
  | some n => if n ≤ 30 ∧ n + 1 < h.nreg then none else some (illegalOperand 0 x.toNat)
  | none => some (illegalOperand 0 x.toNat)

/-- STQ (R123). -/
def execStq (g : BitVec 3) (x a : BitVec 7) (o : BitVec 4) (r : BitVec 2) (s : State) :
    Host.Outcome State Fault Refusal :=
  let srcs := if (selV x).isSome then [(0, x), (0, x + 1), (1, a)] else [(0, x), (0, x), (1, a)]
  { guard := g, srcs := srcs, mods := memMods r, pre := stqPair x : Form }.run (fun l s =>
    let ord := storeOrd r
    l.store s (effAddr (l.src 2) o 16) 16 ord .store ord.orders
      (.store (leBytes 8 (l.src 0).toNat ++ leBytes 8 (l.src 1).toNat))) s

/-- PRF (R124): no architectural effect beyond the checks of its address selector. -/
def execPrf (g : BitVec 3) (a : BitVec 7) (_o : BitVec 4) (_sw : BitVec 2) (s : State) : Host.Outcome State Fault Refusal :=
  { guard := g, srcs := [(0, a)], mods := mCache : Form }.run (fun _ s => .ok s []) s

/-! ### Atomics (R129, R130) -/

/-- An atomic of a lane: with a returned value it is sequentially consistent and its value is pending; with the discard
destination it is a relaxed `red`. -/
def Lane.atomic (l : Lane) (s : State) (opc : BitVec 7) (typ : BitVec 2) (d : BitVec 6) (b c : Word) : LaneOut :=
  let size := if typ.toNat < 2 then 4 else 8
  let ea := l.src 0
  if d.toNat = 2 then l.store s ea size .plain .atomic true (.atomic opc typ b c none)
  else
    match s.access .mem false l.sid ea size .atomic true with
    | (_, .fault f) => .fault f
    | (_, .unmapped a _ _) => .fault (pageFault 0x0B a)
    | (s, .ok ps) =>
      let q := s.tokens 1
      let tok := q.2.headD 0
      .ok ((l.issue q.1 ps (.atomic opc typ b c (some tok)) .sc false).owe l.sid l.pc [tok]) [(d, .pend tok)]

/-- The form of an atomic. -/
def formAtom (g : BitVec 3) (d : BitVec 6) (a b : BitVec 7) : Form :=
  { guard := g, srcs := [(0, a), (1, b)], dst := some d, mods := mScope + mCache }

/-- The type code of a bitwise or float atomic: a 32-bit value is placed unsigned. -/
def atomTyp (t : BitVec 1) : BitVec 2 := if t.toNat = 0 then 1 else 3

/-- ATOM_ADD (R129). -/
def execAtomAdd (g : BitVec 3) (d : BitVec 6) (a b : BitVec 7) (t : BitVec 2) (s : State) : Host.Outcome State Fault Refusal :=
  (formAtom g d a b).run (fun l s => l.atomic s 0x55 t d (l.src 1) 0) s

/-- ATOM_MIN (R129). -/
def execAtomMin (g : BitVec 3) (d : BitVec 6) (a b : BitVec 7) (t : BitVec 2) (s : State) : Host.Outcome State Fault Refusal :=
  (formAtom g d a b).run (fun l s => l.atomic s 0x56 t d (l.src 1) 0) s

/-- ATOM_MAX (R129). -/
def execAtomMax (g : BitVec 3) (d : BitVec 6) (a b : BitVec 7) (t : BitVec 2) (s : State) : Host.Outcome State Fault Refusal :=
  (formAtom g d a b).run (fun l s => l.atomic s 0x57 t d (l.src 1) 0) s

/-- ATOM_AND (R129). -/
def execAtomAnd (g : BitVec 3) (d : BitVec 6) (a b : BitVec 7) (t : BitVec 1) (s : State) : Host.Outcome State Fault Refusal :=
  (formAtom g d a b).run (fun l s => l.atomic s 0x58 (atomTyp t) d (l.src 1) 0) s

/-- ATOM_OR (R129). -/
def execAtomOr (g : BitVec 3) (d : BitVec 6) (a b : BitVec 7) (t : BitVec 1) (s : State) : Host.Outcome State Fault Refusal :=
  (formAtom g d a b).run (fun l s => l.atomic s 0x59 (atomTyp t) d (l.src 1) 0) s

/-- ATOM_XOR (R129). -/
def execAtomXor (g : BitVec 3) (d : BitVec 6) (a b : BitVec 7) (t : BitVec 1) (s : State) : Host.Outcome State Fault Refusal :=
  (formAtom g d a b).run (fun l s => l.atomic s 0x5A (atomTyp t) d (l.src 1) 0) s

/-- ATOM_XCHG (R129). -/
def execAtomXchg (g : BitVec 3) (d : BitVec 6) (a b : BitVec 7) (t : BitVec 1) (s : State) : Host.Outcome State Fault Refusal :=
  (formAtom g d a b).run (fun l s => l.atomic s 0x5B (atomTyp t) d (l.src 1) 0) s

/-- ATOM_CAS (R129): compare value b, new value c, result to the queue. -/
def execAtomCas (g : BitVec 3) (a b c : BitVec 7) (t : BitVec 1) (s : State) : Host.Outcome State Fault Refusal :=
  { guard := g, srcs := [(0, a), (1, b), (2, c)], dst := some 0, mods := mScope + mCache : Form }.run
    (fun l s => l.atomic s 0x5C (atomTyp t) 0 (l.src 1) (l.src 2)) s

/-- ATOM_FADD (R129). -/
def execAtomFadd (g : BitVec 3) (d : BitVec 6) (a b : BitVec 7) (t : BitVec 1) (s : State) : Host.Outcome State Fault Refusal :=
  (formAtom g d a b).run (fun l s => l.atomic s 0x5D (atomTyp t) d (l.src 1) 0) s

/-! ### Fences and drains (R131, R133) -/

/-- FENCE (R131): it waits at issue. -/
def execFence (g : BitVec 3) (sw : BitVec 7) (s : State) : Host.Outcome State Fault Refusal :=
  { guard := g, illegal := 3 < sw.toNat, mods := mScope : Form }.run (fun l s =>
    if s.fenceWaits l.sid sw.toNat then .hold else .ok s []) s

/-- DRAIN (R133, R253): it waits at issue, also for every earlier access of its own thread. -/
def execDrain (g : BitVec 3) (sw : BitVec 7) (s : State) : Host.Outcome State Fault Refusal :=
  { guard := g, illegal := 3 < sw.toNat : Form }.run (fun l s =>
    if s.drainWaits (sidCore l.sid) (sidBank l.sid) sw.toNat || !s.threadQuiet l.sid then .hold else .ok s []) s

/-! ### Watches (R134, R135) -/

/-- WATCH (R134). A range of a bad size is ALIGNMENT before it is PROTECTION. (DEDUCED: log 15) -/
def execWatch (g : BitVec 3) (a b : BitVec 7) (s : State) : Host.Outcome State Fault Refusal :=
  { guard := g, srcs := [(0, a), (1, b)] : Form }.run (fun l s =>
    let va := l.src 0
    let n := (l.src 1).toNat
    if n = 0 ∨ 4096 < n ∨ 4096 < va.toNat % 4096 + n then .fault (misaligned va)
    else if va.toNat / 2 ^ 56 ≠ 0 then .fault (protection va)
    else
      match s.access .mem false l.sid va n .load false with
      | (_, .fault f) => .fault f
      | (_, .unmapped p _ _) => .fault (pageFault 0x0B p)
      | (s, .ok ps) =>
        let rs := ps.map fun p => (p.place / 64 * 64, (p.place + p.len + 63) / 64 * 64)
        .ok (s.updThread l.sid fun th => { th with watch := some { ranges := rs, hit := false } }) []) s

/-- WAITW (R135): 2 with no watch, 0 on a hit; otherwise it blocks, and the outcome is pushed on the wake. (DEDUCED:
log 15) -/
def execWaitw (g : BitVec 3) (d : BitVec 6) (a : BitVec 7) (s : State) : Host.Outcome State Fault Refusal :=
  { guard := g, srcs := [(0, a)], dst := some d, windowBan := true : Form }.run (fun l s =>
    match l.thread.watch with
    | none => .ok s [(d, .known 2)]
    | some w =>
      let t := l.src 0
      if w.hit then .ok (s.updThread l.sid fun th => { th with watch := none }) [(d, .known 0)]
      else if t = 0 then .ok s [(d, .known 1)]
      else .block (.watch d (if t = 0xFFFFFFFFFFFFFFFF#64 then none else some (s.ns + t.toNat)) false)) s

/-! ### Tails and timelines (R137 to R139) -/

/-- TAIL (R137, R308): of a chain, or of a binner's ring. After the release of the thread's earlier accesses the write
of the tail is in flight, counted. -/
def execTail (g : BitVec 3) (a b : BitVec 7) (s : State) : Host.Outcome State Fault Refusal :=
  { guard := g, srcs := [(0, a), (1, b)] : Form }.run (fun l s =>
    let n := (l.src 0).toNat
    if 0x1004 ≤ n || (64 ≤ n && n < 0x1000) || !s.namesEctx l.team.ctx n then .fault (freezeFault 0x13 (l.src 0) 0)
    else if s.fenceWaits l.sid 3 then .hold
    else .ok (l.issue s [] (.tail (if n < 64 then n else 64 + n % 4096) (l.src 1)) .release false) []) s

/-- The index of a timeline is beyond 15, or its timeline is unbound (R138, R139). -/
def tlAbsent (i : Nat) (h : Header) : Option FaultInfo := if tlBound h i then none else some (illegalOperand 1 i)

/-- WAITTL (R138). -/
def execWaittl (g : BitVec 3) (a ix : BitVec 7) (s : State) : Host.Outcome State Fault Refusal :=
  { guard := g, srcs := [(0, a)], windowBan := true, post := tlAbsent ix.toNat : Form }.run (fun l s =>
    if (s.teamTimeline l.team ix.toNat).toNat < (l.src 0).toNat then .block (.timeline ix.toNat (l.src 0)) else .ok s []) s

/-- TLRD (R139). -/
def execTlrd (g : BitVec 3) (d : BitVec 6) (sw : BitVec 7) (s : State) : Host.Outcome State Fault Refusal :=
  { guard := g, dst := some d, pre := tlAbsent sw.toNat : Form }.run (fun l s =>
    .ok s [(d, .known (s.teamTimeline l.team sw.toNat))]) s

end Sys2Proof.Machine
end

