-- ==== Sys2Proof/Machine/Number.lean ====
section
/-! DEFINITION. Number formats and exact arithmetic: the scalar floating-point formats (R57), rounding (R59), flushing,
saturation and NaN (R60 to R62), integral rounding (R63), the special functions as exact values (R91), DXB blocks
(R64 to R68), exact sums (R69 to R73). -/

namespace Sys2Proof.Machine

/-! ### Values and formats -/

/-- The value of a floating-point pattern: NaN, an infinity, or ± mag × 2^exp. -/
inductive Num where
  | nan
  | inf (neg : Bool)
  | fin (neg : Bool) (mag : Nat) (exp : Int)
deriving DecidableEq, Repr

/-- A binary interchange format (R57): exponent and fraction bits. -/
structure FFmt where
  eb : Nat
  fb : Nat
deriving DecidableEq, Repr

/-- `.f32`. -/
def f32 : FFmt := ⟨8, 23⟩

/-- `.f64`. -/
def f64 : FFmt := ⟨11, 52⟩

/-- FP16. -/
def f16 : FFmt := ⟨5, 10⟩

/-- BF16. -/
def bf16 : FFmt := ⟨8, 7⟩

/-- Bits of the format. -/
def FFmt.width (f : FFmt) : Nat := 1 + f.eb + f.fb

/-- Bias of the exponent. -/
def FFmt.bias (f : FFmt) : Int := 2 ^ (f.eb - 1) - 1

/-- Exponent of the smallest normal magnitude. -/
def FFmt.emin (f : FFmt) : Int := 1 - f.bias

/-- Pattern of +∞. -/
def FFmt.infBits (f : FFmt) : Nat := (2 ^ f.eb - 1) * 2 ^ f.fb

/-- Pattern of the canonical NaN (R57). -/
def FFmt.nanBits (f : FFmt) : Nat := f.infBits + 2 ^ (f.fb - 1)

/-- Pattern of +1.0. -/
def FFmt.oneBits (f : FFmt) : Nat := (2 ^ (f.eb - 1) - 1) * 2 ^ f.fb

/-- The sign bit of a pattern. -/
def FFmt.sign (f : FFmt) (x : Nat) : Bool := x / 2 ^ (f.eb + f.fb) % 2 == 1

/-- A pattern without its sign. -/
def FFmt.magBits (f : FFmt) (x : Nat) : Nat := x % 2 ^ (f.eb + f.fb)

/-- A magnitude's pattern with a sign. -/
def FFmt.withSign (f : FFmt) (neg : Bool) (m : Nat) : Nat := m + if neg then 2 ^ (f.eb + f.fb) else 0

/-- The pattern is NaN. -/
def FFmt.isNan (f : FFmt) (x : Nat) : Bool := f.infBits < f.magBits x

/-- The value of a pattern (R57). -/
def FFmt.decode (f : FFmt) (x : Nat) : Num :=
  let neg := f.sign x
  let m := f.magBits x
  let e := m / 2 ^ f.fb
  if f.infBits < m then .nan
  else if m = f.infBits then .inf neg
  else if e = 0 then .fin neg m (f.emin - f.fb)
  else .fin neg (m % 2 ^ f.fb + 2 ^ f.fb) (f.emin - f.fb + e - 1)

/-- A subnormal pattern replaced by zero of its sign (R60). -/
def FFmt.flush (f : FFmt) (x : Nat) : Nat := if f.magBits x < 2 ^ f.fb then f.withSign (f.sign x) 0 else x

/-- ABS then NEG of a pattern (R78). -/
def FFmt.absNeg (f : FFmt) (abs neg : Bool) (x : Nat) : Nat :=
  let x := if abs then f.magBits x else x
  if neg then f.withSign (!f.sign x) (f.magBits x) else x

/-! ### Rounding (R59) -/

/-- A magnitude q + r/d, with `sticky` for a further part below one unit of r, rounds up in mode `rnd` (0 nearest even,
1 toward zero, 2 up, 3 down). -/
def roundsUp (rnd : Nat) (neg : Bool) (q r d : Nat) (sticky : Bool) : Bool :=
  match rnd with
  | 0 => d < 2 * r || (2 * r == d && (sticky || q % 2 == 1))
  | 1 => false
  | 2 => !neg && (r != 0 || sticky)
  | _ => neg && (r != 0 || sticky)

/-- mag × 2^exp brought to a multiple of 2^q: the multiple, rounded. -/
def roundTo (rnd : Nat) (neg : Bool) (mag : Nat) (exp q : Int) (sticky : Bool) : Nat :=
  if q ≤ exp then mag * 2 ^ (exp - q).toNat + if roundsUp rnd neg (mag * 2 ^ (exp - q).toNat) 0 1 sticky then 1 else 0
  else
    let d := 2 ^ (q - exp).toNat
    mag / d + if roundsUp rnd neg (mag / d) (mag % d) d sticky then 1 else 0

/-- The pattern of a magnitude rounded once to a format, with the overflow column of R59. With `sticky` the exact
magnitude lies strictly between mag and mag + 1 units. -/
def FFmt.round (f : FFmt) (rnd : Nat) (neg : Bool) (mag : Nat) (exp : Int) (sticky : Bool) : Nat :=
  if mag = 0 ∧ !sticky then f.withSign neg 0
  else
    let e : Int := exp + (Nat.log2 mag : Nat)
    let top := max e f.emin
    let m := roundTo rnd neg mag exp (top - f.fb) sticky
    let b := (top - f.emin).toNat * 2 ^ f.fb + m
    if f.infBits ≤ b then
      let toMax := rnd == 1 || (rnd == 2 && neg) || (rnd == 3 && !neg)
      f.withSign neg (if toMax then f.infBits - 1 else f.infBits)
    else f.withSign neg b

/-- `.sat` (R62). -/
def FFmt.clamp (f : FFmt) (x : Nat) : Nat :=
  if f.isNan x || f.sign x then 0 else if f.oneBits < x then f.oneBits else x

/-- The last steps of a result: flush and saturation (R60, R62). -/
def FFmt.finish (f : FFmt) (ftz sat : Bool) (x : Nat) : Nat :=
  let x := if ftz then f.flush x else x
  if sat then f.clamp x else x

/-- The pattern of an exact value, rounded once (R59, R61). -/
def FFmt.encode (f : FFmt) (rnd : Nat) : Num → Nat
  | .nan => f.nanBits
  | .inf neg => f.withSign neg f.infBits
  | .fin neg m e => f.round rnd neg m e false

/-! ### Exact arithmetic -/

/-- The opposite value. -/
def Num.neg : Num → Num
  | .nan => .nan
  | .inf n => .inf !n
  | .fin n m e => .fin (!n) m e

/-- The sign of a value. -/
def Num.sign : Num → Bool
  | .nan => false
  | .inf n => n
  | .fin n _ _ => n

/-- A value that is an infinity or NaN. -/
def Num.special : Num → Bool
  | .fin _ _ _ => false
  | _ => true

/-- A finite value as an integer multiple of 2^q, where q is at most its exponent. -/
def scaled (neg : Bool) (m : Nat) (e q : Int) : Int :=
  let v : Int := m * 2 ^ (e - q).toNat
  if neg then -v else v

/-- Exact sum (R61, R89). An exact zero sum of unlike signs is +0, under `.rm` −0. -/
def Num.add (rm : Bool) : Num → Num → Num
  | .nan, _ => .nan
  | _, .nan => .nan
  | .inf a, .inf b => if a = b then .inf a else .nan
  | .inf a, _ => .inf a
  | _, .inf b => .inf b
  | .fin a m e, .fin b n d =>
    let q := min e d
    let v := scaled a m e q + scaled b n d q
    if v = 0 then .fin (if m = 0 ∧ n = 0 ∧ a = b then a else rm) 0 0
    else .fin (decide (v < 0)) v.natAbs q

/-- Exact product (R61, R89). -/
def Num.mul : Num → Num → Num
  | .nan, _ => .nan
  | _, .nan => .nan
  | .inf a, .inf b => .inf (a != b)
  | .inf a, .fin b n _ => if n = 0 then .nan else .inf (a != b)
  | .fin a m _, .inf b => if m = 0 then .nan else .inf (a != b)
  | .fin a m e, .fin b n d => .fin (a != b) (m * n) (e + d)

/-- Exact sum of a list, from the left: -0 where every term is -0. (DESIGN CHOICE: log 69) -/
def Num.sum : List Num → Num
  | [] => .fin false 0 0
  | a :: r => r.foldl (Num.add false) a

/-- Order of two values that are not NaN: −1, 0 or 1; zeros are equal. -/
def Num.cmp : Num → Num → Int
  | .inf a, .inf b => if a = b then 0 else if a then -1 else 1
  | .inf a, _ => if a then -1 else 1
  | _, .inf b => if b then 1 else -1
  | .fin a m e, .fin b n d =>
    let q := min e d
    let x := scaled a m e q
    let y := scaled b n d q
    if x < y then -1 else if y < x then 1 else 0
  | _, _ => 0

/-- A value rounded to an integer (R59, R63); an infinity or NaN has none. -/
def Num.toInt (rnd : Nat) : Num → Option Int
  | .fin neg m e =>
    let v : Int := roundTo rnd neg m e 0 false
    some (if neg then -v else v)
  | _ => none

/-- An integer as a value. -/
def Num.ofInt (z : Int) : Num := .fin (decide (z < 0)) z.natAbs 0

/-! ### Roots, reciprocals and transcendental values (R91) -/

/-- Integer square root of a number below 4^k. -/
def isqrt : Nat → Nat → Nat
  | 0, _ => 0
  | k + 1, n =>
    let r := 2 * isqrt k (n / 4)
    if (r + 1) * (r + 1) ≤ n then r + 1 else r

/-- 1/x rounded. -/
def FFmt.recip (f : FFmt) (rnd : Nat) (neg : Bool) (m : Nat) (e : Int) : Nat :=
  let k := Nat.log2 m + f.fb + 4
  f.round rnd neg (2 ^ k / m) (-e - k) (2 ^ k % m != 0)

/-- √x rounded, of a positive x. -/
def FFmt.sqrt (f : FFmt) (rnd : Nat) (m : Nat) (e : Int) : Nat :=
  let m := if e % 2 = 0 then m else 2 * m
  let e := if e % 2 = 0 then e else e - 1
  let n := m * 4 ^ (f.fb + 4)
  let r := isqrt (Nat.log2 n / 2 + 1) n
  f.round rnd false r (e / 2 - (f.fb + 4)) (r * r != n)

/-- 1/√x rounded, of a positive x. -/
def FFmt.rsqrt (f : FFmt) (rnd : Nat) (m : Nat) (e : Int) : Nat :=
  let m := if e % 2 = 0 then m else 2 * m
  let e := if e % 2 = 0 then e else e - 1
  let k := Nat.log2 m + f.fb + 4
  let n := 4 ^ k / m
  let r := isqrt (Nat.log2 n / 2 + 1) n
  f.round rnd false r (-(e / 2) - k) (r * r * m != 4 ^ k)

/-- Binary places of the fixed-point numbers below. -/
def fxP : Nat := 256

/-- ln 2 in units of 2^-256. -/
def fxLn2 : Int := 0xb17217f7d1cf79abc9e3b39803f2f6af40f343267298b62d8a0d175b8baafa2b

/-- π in units of 2^-256. -/
def fxPi : Int := 0x3243f6a8885a308d313198a2e03707344a4093822299f31d0082efa98ec4e6c89

/-- One in these units. -/
def fxOne : Int := 2 ^ 256

/-- Product of fixed-point numbers. -/
def fxMul (a b : Int) : Int := (a * b).fdiv fxOne

/-- A value in these units; exact for every `.f32` value, whose exponent is at least −149. -/
def fxOf (neg : Bool) (m : Nat) (e : Int) : Int :=
  let v : Int := if 0 ≤ e + 256 then m * 2 ^ (e + 256).toNat else m / 2 ^ (-(e + 256)).toNat
  if neg then -v else v

/-- Taylor series with terms t_k = t_(k−1) × y / (s × k) for an exponential: the sum from term k on. -/
def fxExpSum (y : Int) : Nat → Nat → Int → Int
  | 0, _, _ => 0
  | n + 1, k, t => t + fxExpSum y n (k + 1) ((fxMul t y).fdiv k)

/-- e^y for 0 ≤ y ≤ 1. -/
def fxExp (y : Int) : Int := fxExpSum y 70 1 fxOne

/-- Alternating series for sine (first term y, k = 2) and cosine (first term 1, k = 1): terms t × −y² / (k (k + 1)). -/
def fxTrigSum (y2 : Int) : Nat → Nat → Int → Int
  | 0, _, _ => 0
  | n + 1, k, t => t + fxTrigSum y2 n (k + 2) (-((fxMul t y2).fdiv (k * (k + 1) : Nat)))

/-- sin y for |y| ≤ 1. -/
def fxSin (y : Int) : Int := fxTrigSum (fxMul y y) 40 2 y

/-- cos y for |y| ≤ 1. -/
def fxCos (y : Int) : Int := fxTrigSum (fxMul y y) 40 1 fxOne

/-- The sum z^k / k over odd k, from k on, with the power t = z^k. -/
def fxAtanhSum (z2 : Int) : Nat → Nat → Int → Int
  | 0, _, _ => 0
  | n + 1, k, t => t.fdiv k + fxAtanhSum z2 n (k + 2) (fxMul t z2)

/-- ln m for 1 ≤ m < 2, in these units: 2 artanh((m − 1)/(m + 1)). -/
def fxLn (m : Int) : Int :=
  let z := ((m - fxOne) * fxOne).fdiv (m + fxOne)
  2 * fxAtanhSum (fxMul z z) 90 1 z

/-- A fixed-point result, known to be inexact, rounded to nearest even (log 30). -/
def FFmt.roundFx (f : FFmt) (v : Int) : Nat := f.round 0 (decide (v < 0)) v.natAbs (-256) true

/-- 2^x of a finite value (R91). (DEDUCED: log 30) -/
def FFmt.exp2 (f : FFmt) (neg : Bool) (m : Nat) (e : Int) : Nat :=
  if 12 ≤ e + (Nat.log2 m : Nat) then (if neg then f.round 0 false 1 (-4096) true else f.round 0 false 1 4096 false)
  else
    let x := fxOf neg m e
    let n := x.fdiv fxOne
    let fr := x - n * fxOne
    if fr = 0 then f.round 0 false 1 n false
    else f.round 0 false (fxExp (fxMul fr fxLn2)).toNat (n - 256) true

/-- log₂ x of a positive finite value (R91). (DEDUCED: log 30) -/
def FFmt.log2' (f : FFmt) (m : Nat) (e : Int) : Nat :=
  let k := Nat.log2 m
  let n : Int := e + k
  if m = 2 ^ k then f.encode 0 (Num.ofInt n)
  else f.roundFx (n * fxOne + (fxLn (fxOf false m (-k)) * fxOne).fdiv fxLn2)

/-- A value of magnitude below 2^-13. -/
def tinyNum (m : Nat) (e : Int) : Bool := e + (Nat.log2 m : Nat) < -13

/-- The argument that sine and cosine are taken of (R91): x, or x − n × P beyond 32,768, in fixed point. -/
def trigArg (neg : Bool) (m : Nat) (e : Int) : Int :=
  let x := fxOf neg m e
  if x.natAbs ≤ 32768 * 2 ^ 256 then x
  else x - x.fdiv (0x3243f6a8885a3 * 2 ^ 209) * (0x3243f6a8885a3 * 2 ^ 209)

/-- Sine (0) or cosine (1) of a fixed-point angle. -/
def fxTrig (cos : Nat) (x : Int) : Int :=
  let h := fxPi.fdiv 2
  let k := (x + h.fdiv 2).fdiv h
  let y := x - k * h
  match (k + cos) % 4 with
  | 0 => fxSin y
  | 1 => fxCos y
  | 2 => -(fxSin y)
  | _ => -(fxCos y)

/-- sin x of a finite x; a tiny x rounds to itself. (DEDUCED: log 30) -/
def FFmt.sin (f : FFmt) (neg : Bool) (m : Nat) (e : Int) : Nat :=
  if tinyNum m e then f.round 0 neg m e false else f.roundFx (fxTrig 0 (trigArg neg m e))

/-- cos x of a finite x. (DEDUCED: log 30) -/
def FFmt.cos (f : FFmt) (neg : Bool) (m : Nat) (e : Int) : Nat :=
  if tinyNum m e then f.oneBits else f.roundFx (fxTrig 1 (trigArg neg m e))

/-- tanh x of a finite x: (1 − t)/(1 + t) with t = e^(−2|x|); a tiny x rounds to itself. (DEDUCED: log 30) -/
def FFmt.tanh (f : FFmt) (neg : Bool) (m : Nat) (e : Int) : Nat :=
  if tinyNum m e then f.round 0 neg m e false
  else
    let y := 2 * fxOf false m e
    if 64 * fxOne ≤ y then f.withSign neg f.oneBits
    else
      let n := y.fdiv fxLn2 + 1
      let t := (fxExp (n * fxLn2 - y)).fdiv (2 ^ n.toNat)
      let v := ((fxOne - t) * fxOne).fdiv (fxOne + t)
      f.round 0 neg v.toNat (-256) true

/-! ### DXB (R64 to R68) -/

/-- log₂ of the divisor d of an element's magnitude. -/
def dxbShift (eight : Bool) : Int := if eight then 5 else 1

/-- The largest magnitude. -/
def dxbMax (eight : Bool) : Nat := if eight then 63 else 3

/-- The value of an element under its exponent pair (R64). -/
def dxbValue (eight : Bool) (el ea eb : Nat) : Num :=
  if ea = 255 ∨ eb = 255 then .nan
  else
    let n := dxbMax eight + 1
    let sel := el / n % 2
    .fin (el / (2 * n) % 2 == 1) (el % n) ((if sel = 0 then ea else eb : Nat) - 127 - dxbShift eight)

/-- A magnitude in units of an exponent, to nearest even. -/
def dxbRound (eight : Bool) (m : Nat) (e : Int) (ex : Nat) : Nat := roundTo 0 false m (e + dxbShift eight - ex + 127) 0 false

/-- The greatest magnitude of finite values: mag and exponent. -/
def maxMag : List Num → Nat × Int
  | [] => (0, 0)
  | .fin _ m e :: r =>
    let b := maxMag r
    if scaled false b.1 b.2 (min e b.2) < scaled false m e (min e b.2) then (m, e) else b
  | _ :: r => maxMag r

/-- Quantising a block (R68): the pair and the elements. -/
def dxbQuantise (eight : Bool) (k : Nat) (xs : List Num) : Nat × Nat × List Nat :=
  if xs.any Num.special then (255, 255, xs.map fun _ => 0)
  else
    let top := maxMag xs
    let ea := (findFrom (fun e => dxbRound eight top.1 top.2 e ≤ dxbMax eight) 255 0).getD 254
    let eb := ea - k
    let n := dxbMax eight + 1
    (ea, eb, xs.map fun x =>
      match x with
      | .fin neg m e =>
        let mb := dxbRound eight m e eb
        let s := if neg then 2 * n else 0
        if mb ≤ dxbMax eight then s + n + mb else s + min (dxbRound eight m e ea) (dxbMax eight)
      | _ => 0)

end Sys2Proof.Machine
end

