-- ==== Sys2Proof/Machine/Trace.lean ====
section
/-! DEFINITION. The trace unit of a cluster (R354, R355): records of one clock are gathered and written at its end. -/

namespace Sys2Proof.Machine

/-- The arithmetic clocks of a cluster since it was enabled, in 1700ths: one clock of the model is 1/1700 µs (R354).
(DESIGN CHOICE: log 7) -/
def State.lcycParts (s : State) (cl : Nat) : Nat := (s.cluster cl).lcycAcc + (s.clk - (s.cluster cl).lcycAt) * (s.cluster cl).fmhz

/-- LCYC of a cluster (R354). -/
def State.lcyc (s : State) (cl : Nat) : Nat := s.lcycParts cl / 1700 % 2 ^ 48

/-- A record of a traced cluster joins those of its clock. -/
def State.traceRec (s : State) (cl kind core ctx : Nat) (w1 : Word) : State :=
  if (s.cluster cl).trace.en then
    s.updCluster cl fun c =>
      let r := (kind, core, wd (kind * 2 ^ 60 + ctx % 64 * 2 ^ 54 + s.lcyc cl), w1)
      { c with trace := { c.trace with buf := c.trace.buf ++ [r] } }
  else s

/-- The device time, in whole nanoseconds, at the start of the cluster's clock `n`, the present one or one that has passed in
this clock of the model. -/
def State.syncTime (s : State) (cl n : Nat) : Nat :=
  (s.time.now - (s.lcycParts cl - 1700 * n) * 65536000 / (1700 * (s.cluster cl).fmhz)) / 65536

/-- The two words of a SYNC record of the cluster's clock `n` (R355). (DESIGN CHOICE: log 7) -/
def State.syncWordsAt (s : State) (cl n : Nat) : Word × Word :=
  (wd ((s.cluster cl).fmhz % 4096 * 2 ^ 48 + n % 2 ^ 48), wd (s.syncTime cl n))

/-- The two words of a SYNC record of this clock. -/
def State.syncWords (s : State) (cl : Nat) : Word × Word := s.syncWordsAt cl (s.lcycParts cl / 1700)

/-- A record is dropped and counted. -/
def State.traceDrop (s : State) (cl : Nat) : State :=
  s.updCluster cl fun c => { c with trace := { c.trace with tlost := c.trace.tlost + 1, lost := true } }

/-- One record is written to the ring, or dropped when the ring is full or its place cannot be written.
(DESIGN CHOICE: log 56) -/
def State.traceWrite (s : State) (cl : Nat) (w0 w1 : Word) : State :=
  let t := (s.cluster cl).trace
  if 2 ^ t.tlog ≤ t.twr.toNat - t.trd.toNat then s.traceDrop cl
  else
    let a := wd (t.tbase.toNat / 4096 * 4096 + 16 * (t.twr.toNat % 2 ^ t.tlog))
    match s.agentWrite 0 a false (leBytes 8 w0.toNat ++ leBytes 8 w1.toNat) with
    | none => s.traceDrop cl
    | some s => s.updCluster cl fun c => { c with trace := { c.trace with twr := c.trace.twr + 1, lost := false } }

/-- A record; the first that is written after a drop is preceded by a SYNC record, and dropped where that cannot be
written. -/
def State.traceOne (s : State) (cl : Nat) (r : Nat × Nat × Word × Word) : State :=
  if (s.cluster cl).trace.lost && r.1 != 0 then
    let u := s.traceWrite cl (s.syncWords cl).1 (s.syncWords cl).2
    if (u.cluster cl).trace.lost then s.traceDrop cl else u.traceWrite cl r.2.2.1 r.2.2.2
  else s.traceWrite cl r.2.2.1 r.2.2.2

/-- Insertion of a record by kind, then core; equal ones stay in their order. -/
def traceInsert (r : Nat × Nat × Word × Word) : List (Nat × Nat × Word × Word) → List (Nat × Nat × Word × Word)
  | [] => [r]
  | q :: t => if r.1 < q.1 ∨ (r.1 = q.1 ∧ r.2.1 < q.2.1) then r :: q :: t else q :: traceInsert r t

/-- The records of a clock are written, SYNC first, then by kind, then by core. -/
def State.traceFlush (s : State) (cl : Nat) : State :=
  let rs := (s.cluster cl).trace.buf.foldl (fun l r => traceInsert r l) []
  if rs.isEmpty then s
  else
    let s := s.updCluster cl fun c => { c with trace := { c.trace with buf := [] } }
    rs.foldl (fun s r => s.traceOne cl r) s

/-- LCYC has reached a multiple of 2^16 in this clock, at the setting that stood before it. -/
def State.lcycTurns (s : State) (cl : Nat) : Bool :=
  decide ((s.cluster cl).lcycAt < s.clk)
    && s.lcycParts cl / 1700 / 65536 != (s.lcycParts cl - (s.cluster cl).fmhz) / 1700 / 65536

/-- The cluster's clocks that a SYNC record marks now (R355): a multiple of 2^16 that LCYC has reached or passed, and the
present clock at a new setting of clock or body bias, and after EN is set. -/
def State.syncMarks (s : State) (cl : Nat) : List Nat :=
  let n := s.lcycParts cl / 1700
  ((if s.lcycTurns cl then [n / 65536 * 65536] else []) ++ if (s.cluster cl).trace.needSync then [n] else []).eraseDups

/-- A SYNC record among those of a clock. -/
def State.syncRec (s : State) (cl n : Nat) : Nat × Nat × Word × Word :=
  (0, 0, (s.syncWordsAt cl n).1, (s.syncWordsAt cl n).2)

/-- The SYNC records that this clock still lacks. -/
def State.syncMissing (s : State) (cl : Nat) : List (Nat × Nat × Word × Word) :=
  ((s.syncMarks cl).map (s.syncRec cl)).filter fun r => !(s.cluster cl).trace.buf.contains r

/-- A SYNC record is due in a traced cluster (R355). -/
def State.syncDue (s : State) (cl : Nat) : Bool := (s.cluster cl).trace.en && !(s.syncMissing cl).isEmpty

/-- The SYNC records that are due join those of their clock. -/
def State.traceSync (s : State) (cl : Nat) : State :=
  if s.syncDue cl then
    s.updCluster cl fun c => { c with trace := { c.trace with needSync := false, buf := s.syncMissing cl ++ c.trace.buf } }
  else s

/-- TRACE_SYNC_RECORD (R355). -/
def execTraceSyncRecord (cluster : Nat) (s : State) : Host.Outcome State Fault Refusal := .next (s.traceSync cluster)

/-- A write of a counter by the monotonic-maximum rule (R298). -/
def monoMax (old new : Word) : Word := if old.toNat < new.toNat then new else old

/-- TRD_WRITE (R354). -/
def execTrdWrite (cluster : Nat) (w : Word) (s : State) : Host.Outcome State Fault Refusal :=
  .next (s.updCluster cluster fun c => { c with trace := { c.trace with trd := monoMax c.trace.trd w } })

end Sys2Proof.Machine
end

