-- ==== Sys2Proof/Machine/Cards.lean ====
section
/-! DEFINITION. Cards: the kernel header and its checks (R50 to R53), the card and its acceptance (R187 to R190), the
journal (R352, R353), ready queues (R191), placement and launch (R172, R173), the kill of a team (R274). -/

namespace Sys2Proof.Machine

/-! ### Records without a thread -/

/-- A record of an engine or of retirement hardware (R111, R112). -/
def State.engineRecord (s : State) (ctx : Nat) (card : BitVec 32) (wid : Word) (cluster : Nat) (code : BitVec 5)
    (fatal replay : Bool) (addr : Word) (extra : Nat) : State :=
  s.postRecord
    { card := card, extra := BitVec.ofNat 14 extra, ctx := ctx, cluster := cluster, core := 0, bank := 0,
      exited := false, replay := replay, fatal := fatal, wid := wid, code := code, pc := 0, addr := addr, owner := none,
      engine := none, clk := s.clk }

/-- EXTRA as word index and lowest bit (R112). -/
def extraAt (word bit : Nat) : Nat := word + 256 * bit

/-- The lowest set bit of the reserved fields of a record: fields as word, high and low bit, in rising order.
(DESIGN CHOICE: log 23) -/
def reservedAt (ws : List Word) : List (Nat × Nat × Nat) → Option (Nat × Nat)
  | [] => none
  | (w, hi, lo) :: r =>
    let x := bits (wordAt ws w) hi lo
    if x ≠ 0 then some (w, lo + lowBit 64 x) else reservedAt ws r

/-- The first test of a list that fails. (DESIGN CHOICE: log 23) -/
def firstBad {α : Type} : List (Bool × α) → Option α
  | [] => none
  | (b, a) :: r => if b then some a else firstBad r

/-! ### The kernel header (R50, R51) -/

/-- Sum of the first `n` WID field widths (R29). -/
def Header.shift (h : Header) (n : Nat) : Nat := (h.fw.take n).foldl (fun a x => a + x) 0

/-- In-team width sum (R29). -/
def Header.teamBits (h : Header) : Nat := h.shift h.tb

/-- Threads of a team (R29). -/
def Header.teamSize (h : Header) : Nat := 2 ^ h.teamBits

/-- The fields of a header at an address. -/
def Header.of (addr : Word) (ws : List Word) : Header :=
  let w := wordAt ws
  let or0 := fun x d : Nat => if x = 0 then d else x
  { addr := addr, ver := bits (w 0) 7 0, nreg := bits (w 0) 21 16, xsize := bits (w 0) 34 24,
    qmask := BitVec.ofNat 8 (bits (w 0) 47 40), argsz := bits (w 0) 15 8, entry := bits (w 1) 31 0,
    idem := bitAt (w 0) 52, prio := bits (w 0) 51 48,
    fw := (List.range 6).map fun i => bits (w 2) (6 * i + 5) (6 * i), tb := bits (w 2) 38 36, ab := bits (w 2) 41 39,
    fill := or0 (bits (w 3) 53 48) 32, age := or0 (bits (w 4) 16 0) 512, budget := bits (w 3) 47 0,
    ectx := [bits (w 4) 47 32, bits (w 4) 63 48] ++ (List.range 12).map fun i =>
      bits (w (5 + i / 4)) (16 * (i % 4) + 15) (16 * (i % 4)) }

/-- Reserved fields of a header. -/
def headerReserved : List (Nat × Nat × Nat) :=
  [(0, 23, 22), (0, 39, 35), (0, 63, 53), (1, 63, 32), (2, 63, 42), (3, 63, 54), (4, 31, 17)]

/-- Place of ECTX of timeline `i + 2` in a header. -/
def ectxPlace (i : Nat) : Nat × Nat := if i < 2 then (4, 32 + 16 * i) else (5 + (i - 2) / 4, 16 * ((i - 2) % 4))

/-- The range checks of R51 in order, with the place each names. -/
def State.headerRanges (s : State) (ctx : Nat) (h : Header) : List (Bool × Nat × Nat) :=
  [(decide (h.nreg > 32), 0, 16), (decide (h.xsize > 1024), 0, 24), (h.entry % 4 != 0 || h.entry < 64, 1, 0), (decide (h.fill > 32), 3, 48),
   (h.age < 16 || h.age > 65536, 4, 0), (decide (h.shift 6 > 64), 2, 0), (decide (h.teamBits > 11), 2, 0), (decide (h.ab > 6), 2, 39),
   (decide (h.tb > h.ab), 2, 36), (h.argsz % 8 != 0 || h.argsz > (if h.ver = 1 then 128 else 224), 0, 8),
   (h.ver == 1 && h.qmask != 0, 0, 40 + lowBit 8 h.qmask.toNat)]
  ++ h.ectx.zipIdx.map fun p => (p.1 != 0xFFFF && !s.namesEctx ctx p.1, (ectxPlace p.2).1, (ectxPlace p.2).2)

/-! ### The card (R187, R188) -/

/-- What the checks of acceptance find: header and arguments, or a failure with its record: code, address, EXTRA. -/
inductive CardCheck where
  | good (h : Header) (args : List Word)
  | bad (badVersion : Bool) (rec' : Option (BitVec 5 × Word × Nat))
deriving DecidableEq, Repr

/-- Reserved fields of a card. -/
def cardReserved : List (Nat × Nat × Nat) :=
  [(0, 39, 34), (0, 47, 45), (0, 63, 56), (5, 63, 44), (6, 63, 32), (9, 63, 16), (15, 63, 0)]

/-- PLACE. -/
def cardPlace (ws : List Word) : Nat := bits (wordAt ws 0) 44 40

/-- SEGS. -/
def cardSegs (ws : List Word) : Nat := bits (wordAt ws 5) 43 32

/-- TCNTi. -/
def cardTcnt (ws : List Word) (i : Nat) : Nat :=
  if i < 4 then bits (wordAt ws 4) (16 * i + 15) (16 * i) else bits (wordAt ws 5) (16 * (i - 4) + 15) (16 * (i - 4))

/-- Place of TCNTi. -/
def tcntPlace (i : Nat) : Nat × Nat := if i < 4 then (4, 16 * i) else (5, 16 * (i - 4))

/-- CTL. -/
def cardCtl (ws : List Word) : Nat := bits (wordAt ws 9) 15 0

/-- Teams along field i, at or above the boundary: a count of 0 is 1. -/
def teamsAlong (h : Header) (ws : List Word) (i : Nat) : Nat := if i < h.tb then 1 else max 1 (cardTcnt ws i)

/-- Teams of a card (R188). -/
def cardTeams (h : Header) (ws : List Word) : Nat := (List.range 6).foldl (fun a i => a * teamsAlong h ws i) 1

/-- WID of team `j` of a card, counting along the lowest field first, so in increasing WID (R188). -/
def teamWid (h : Header) (ws : List Word) (j : Nat) : Word :=
  let step := fun (a : Nat × Nat) (i : Nat) =>
    if i < h.tb then a else
      let n := teamsAlong h ws i
      (a.1 + a.2 % n * 2 ^ h.shift i, a.2 / n)
  wd (((List.range 6).foldl step ((wordAt ws 3).toNat, j)).1)

/-- The checks of one field's count (R188). -/
def tcntChecks (h : Header) (ws : List Word) (i : Nat) : List (Bool × Nat × Nat) :=
  let c := cardTcnt ws i
  let w := h.fw.getD i 0
  let f := (wordAt ws 3).toNat / 2 ^ h.shift i % 2 ^ w
  let p := tcntPlace i
  [(i < h.tb && c != 0, p.1, p.2 + lowBit 16 c), (h.tb ≤ i && w == 0 && c > 1, p.1, p.2),
   (h.tb ≤ i && w != 0 && f + max 1 c > 2 ^ w, 3, 0)]

/-- Bits of WIDBASE that must be zero: in-team fields, and above the last field (R188). -/
def widbaseBad (h : Header) (ws : List Word) : Nat :=
  let w := (wordAt ws 3).toNat
  w % 2 ^ h.teamBits + w / 2 ^ h.shift 6 * 2 ^ h.shift 6

/-- A context owns a granule for allocations: KIND 01 and its number (R170). -/
def ClusterSt.granuleOf (c : ClusterSt) (ctx g : Nat) : Bool :=
  let e := (tgetD c.owner g 0).toNat
  e / 16384 == 1 && e % 64 == ctx

/-- Logical clusters of a context's partition. -/
def CtxSt.clusters (c : CtxSt) : List Nat := (List.range 24).filter fun i => c.part.getLsbD i

/-- The most segments that a context owns in any one cluster of its partition: a card whose SEGS exceeds what it owns in
every cluster is refused (R173, R190). (DESIGN CHOICE: log 25) -/
def State.segsOwned (s : State) (ctx : Nat) : Nat :=
  (s.ctx ctx).clusters.foldl (fun a cl =>
    max a (16 * ((s.cluster cl).owner.filter fun p => (s.cluster cl).granuleOf ctx p.1).length)) 0

/-- How a card comes to be accepted (R190). -/
inductive AcceptBy where
  | launch
  | pred
  | work
  | act
deriving DecidableEq, Repr

/-- The cluster a card goes to, spread apart (R191). -/
def targetCluster (ws : List Word) (cluster : Nat) : Nat := if cardPlace ws < 24 then cardPlace ws else cluster

/-- The card's own checks, the last row of R190's table. (DESIGN CHOICE: log 70) -/
def State.cardRanges (s : State) (ctx : Nat) (by' : AcceptBy) (cluster : Nat) (h : Header) (ws : List Word) :
    List (Bool × Nat × Nat) :=
  let p := cardPlace ws
  let part := (s.ctx ctx).part
  [((24 ≤ p && p ≤ 29) || (p != 31 && !part.getLsbD (targetCluster ws cluster)), 0, 40),
   (cardSegs ws > 2048 || cardSegs ws > s.segsOwned ctx, 5, 32)]
  ++ (List.range 6).flatMap (tcntChecks h ws)
  ++ [(widbaseBad h ws != 0, 3, lowBit 64 (widbaseBad h ws)),
      (decide (cardTeams h ws > 2 ^ 32), (tcntPlace (min h.tb 5)).1, (tcntPlace (min h.tb 5)).2),
      (cardCtl ws != 0xFFFF && !s.namesEctx ctx (cardCtl ws), 9, 0),
      (decide (by' = .work) && bits (wordAt ws 6) 15 0 != 0, 6, 0)]

/-- A card's address breaks R187: its record code. (DESIGN CHOICE: log 24) -/
def State.cardAddrBad (s : State) (ctx : Nat) (addr : Word) : Option (BitVec 5) :=
  if addr.toNat % 128 ≠ 0 then some 0x0A
  else if addr.toNat / 2 ^ 56 ≠ 0 || ((s.ctx ctx).window addr).isSome then some 0x0D
  else none

/-- The checks of R190 from the reserved fields on, in order, for the words of a card. (DESIGN CHOICE: log 23) -/
def State.checkCard (s : State) (ctx : Nat) (addr : Word) (ws : List Word) (by' : AcceptBy) (cluster : Nat) : CardCheck :=
  let hdr := wordAt ws 1
  let args := wordAt ws 2
  match s.cardAddrBad ctx addr with
  | some c => .bad false (some (c, addr, 0))
  | none =>
  match reservedAt ws cardReserved with
  | some (w, b) => .bad false (some (0x03, addr, extraAt w b))
  | none =>
  if hdr.toNat % 64 ≠ 0 then .bad false (some (0x0A, hdr, 0))
  else if args.toNat % 8 ≠ 0 then .bad false (some (0x0A, args, 0))
  else
  match s.agentRead ctx hdr false 64 with
  | none => let f := s.readFault ctx hdr false 64
    .bad false (some (f.1, f.2, 0))
  | some hb =>
  let hw := leWords 8 hb
  let h := Header.of hdr hw
  match s.agentRead ctx args false h.argsz with
  | none => let f := s.readFault ctx args false h.argsz
    .bad false (some (f.1, f.2, 0))
  | some ab =>
  if h.ver = 0 ∨ 3 < h.ver then .bad true none
  else
  match reservedAt hw headerReserved with
  | some (w, b) => .bad false (some (0x03, hdr, extraAt w b))
  | none =>
  match firstBad (s.headerRanges ctx h) with
  | some (w, b) => .bad false (some (0x13, hdr, extraAt w b))
  | none =>
  match firstBad (s.cardRanges ctx by' cluster h ws) with
  | some (w, b) => .bad false (some (0x13, addr, extraAt w b))
  | none => .good h (leWords 28 ab)

/-! ### The journal (R352, R353) -/

/-- Location of the record of sequence number `n`. -/
def State.journalLoc (s : State) (n : Nat) : Nat :=
  hostLoc ((s.journal.jbase.toNat / 4096 % 2048 * 4096 + 16 * (n % 2 ^ s.journal.jlog)) % 2 ^ 23)

/-- The next record's place is free: no record before it, or one in state 11. (DESIGN CHOICE: log 24) -/
def State.journalFree (s : State) : Bool :=
  let st := s.readNat (s.journalLoc s.journal.jseq.toNat + 8) 8 % 4
  st == 0 || st == 3

/-- A record is written. -/
def State.journalWrite (s : State) (n : Nat) (addr : Word) (state : Nat) : State :=
  s.store (s.journalLoc n) (leBytes 8 n ++ leBytes 8 (addr.toNat / 128 * 128 + state))

/-! ### Ready queues (R191) -/

/-- Two ready cards stand in one queue. -/
def Card.sameQueue (a b : Card) : Bool := a.ctx == b.ctx && a.place == b.place && a.place != .placed

/-- The cards of a queue, by priority, highest first, then in the order they became ready. -/
def State.queueCards (s : State) (p : CardPlace) (ctx : Nat) : List Nat :=
  let cs := s.cards.filter fun q => q.2.ctx == ctx && q.2.place == p && !q.2.overflow
  let ins := fun (l : List (Nat × Nat × Nat)) (x : Nat × Nat × Nat) =>
    let before := l.takeWhile fun y => x.2.1 < y.2.1 || (x.2.1 == y.2.1 && y.2.2 < x.2.2)
    before ++ x :: l.drop before.length
  ((cs.map fun q => (q.1, q.2.prio, q.2.order)).foldl ins []).map Prod.fst

/-- The overflow list of a queue, in order. -/
def State.overflowCards (s : State) (p : CardPlace) (ctx : Nat) : List Nat :=
  let cs := s.cards.filter fun q => q.2.ctx == ctx && q.2.place == p && q.2.overflow
  let ins := fun (l : List (Nat × Nat)) (x : Nat × Nat) =>
    let before := l.takeWhile fun y => y.2 < x.2
    before ++ x :: l.drop before.length
  ((cs.map fun q => (q.1, q.2.order)).foldl ins []).map Prod.fst

/-- A word of a card is written by the device; a word that cannot be written is left. -/
def State.cardWrite (s : State) (ctx : Nat) (addr : Word) (word : Nat) (v : Word) : State :=
  (s.agentWrite ctx (addr + wd (8 * word)) false (leBytes 8 v.toNat)).getD s

/-- The LINK words of an overflow list: each card's next, zero for the last. -/
def State.linkList (s : State) : List Nat → State
  | [] => s
  | c :: r =>
    match tget s.cards c with
    | none => s.linkList r
    | some k =>
      let next := ((r.head?.bind fun n => tget s.cards n).map Card.addr).getD 0
      (s.cardWrite k.ctx k.addr 14 next).linkList r

/-- A card enters its queue, in its order of acceptance (R278), or the overflow list when 1,024 cards or an overflow
list stand before it. (DESIGN CHOICE: log 25) -/
def State.enqueue (s : State) (c : Nat) (p : CardPlace) : State :=
  match tget s.cards c with
  | none => s
  | some k =>
    let many := !(s.overflowCards p k.ctx).isEmpty || 1024 ≤ (s.queueCards p k.ctx).length
    let s := (s.updCard c fun k => { k with place := p, overflow := many })
    if many then s.linkList (s.overflowCards p k.ctx) else s

/-- A card has no team left to place: it leaves its queue, and the overflow list moves up. -/
def State.leaveQueue (s : State) (c : Nat) : State :=
  match tget s.cards c with
  | none => s
  | some k =>
    let p := k.place
    let s := s.updCard c fun k => { k with place := .placed, overflow := false }
    match s.overflowCards p k.ctx with
    | [] => s
    | o :: r =>
      if 1024 ≤ (s.queueCards p k.ctx).length then
        (if k.overflow then s.linkList (o :: r) else s)
      else (s.updCard o fun k => { k with overflow := false }).linkList r

/-! ### Acceptance (R190) -/

/-- What comes of an acceptance. -/
inductive Accepted where
  | ok (card : Nat)
  | failed (card : Nat)
  | unreadable
  | wait
deriving DecidableEq, Repr

/-- No outcome yet. -/
def Outcomes.none : Outcomes :=
  { powerKill := false, deadlineMiss := false, killed := false, retryExhausted := false, faulted := false,
    badVersion := false }

/-- A card as it enters the device. -/
def Card.fresh (ctx : Nat) (addr : Word) (ws : List Word) (h : Header) (args : List Word) (cluster : Nat) : Card :=
  { ctx := ctx, addr := addr, words := ws, hdr := h, args := args, prio := 0, place := .placed, order := 0,
    overflow := false, next := 0, total := 0, again := [], records := 0, prefer := none, lastOf := [], started := false,
    home := .placed, tries := 0, late := false, out := Outcomes.none, journal := none, cluster := cluster, act := none, cores := 255,
    bank := none, phase := 0, succ := 0 }

/-- A card's header or argument block whose read has failed by an error or a timeout: its words have been read (R364,
R367). -/
def State.touchRefs (s : State) (ctx : Nat) (ws : List Word) (code : BitVec 5) : State :=
  if code = 0x19 ∨ code = 0x1A then
    let hdr := wordAt ws 1
    let n := ((s.agentRead ctx hdr false 64).map fun b => (Header.of hdr (leWords 8 b)).argsz).getD 0
    (s.agentTouch ctx hdr false 64).agentTouch ctx (wordAt ws 2) false n
  else s

/-- The words of a card are accepted (R190, R353): the checks, the journal record in state 01, the ready queue. A card
that fails starts no team and completes (R52). (DESIGN CHOICE: log 24) -/
def State.acceptWords (s : State) (ctx : Nat) (addr : Word) (ws : List Word) (by' : AcceptBy) (cluster : Nat)
    (set : Card → Card) : State × Accepted :=
  let cl := if by' = .launch then 0 else cluster
  let id := s.fresh
  match s.checkCard ctx addr ws by' cluster with
  | .bad version r =>
    let k := set (Card.fresh ctx addr ws (Header.of 0 []) [] cluster)
    let k := { k with out := { k.out with badVersion := version, faulted := !version } }
    let s := { s.bump with cards := tset s.cards id k }
    let s := match r with
      | none => s
      | some (code, a, e) =>
        (s.touchRefs ctx ws code).engineRecord ctx ((wordAt ws 0).setWidth 32) (wordAt ws 3) cl code false false a e
    (s, .failed id)
  | .good h args =>
    if by' ≠ .act && !s.journalFree then (s, .wait)
    else
      let s := (s.agentTouch ctx h.addr false 64).agentTouch ctx (wordAt ws 2) false h.argsz
      let prio := min (s.ctx ctx).maxprio (if bitAt (wordAt ws 0) 32 then h.prio else bits (wordAt ws 0) 55 52)
      let n := s.journal.jseq.toNat
      let p : CardPlace :=
        if by' = .work then .ready cluster
        else if cardPlace ws = 31 then .spread else .ready (targetCluster ws cluster)
      let home := if by' = .work then cluster else targetCluster ws cluster
      let k := { Card.fresh ctx addr ws h args home with
                   prio := prio, total := cardTeams h ws, order := id, home := p,
                   journal := if by' = .act then none else some n }
      let s := { s.bump with cards := tset s.cards id (set k) }
      let s := if by' = .act then s else
        { s with journal := { s.journal with jseq := s.journal.jseq + 1 } }.journalWrite n addr 1
      (s.enqueue id p, .ok id)

/-- A card is accepted from memory (R190): all its bytes are read once. A card that cannot be read is not completed. -/
def State.accept (s : State) (ctx : Nat) (addr : Word) (by' : AcceptBy) (cluster : Nat) (set : Card → Card) :
    State × Accepted :=
  match s.agentRead ctx addr false 128 with
  | none =>
    let r := ((s.cardAddrBad ctx addr).map fun c => (c, addr)).getD (s.readFault ctx addr false 128)
    ((s.agentTouch ctx addr false 128).engineRecord ctx 0 0 (if by' = .launch then 0 else cluster) r.1 false false r.2 0,
      .unreadable)
  | some bs => (s.agentTouch ctx addr false 128).acceptWords ctx addr (leWords 16 bs) by' cluster set

/-! ### Placement (R11, R172, R173) -/

/-- Slots taken in a lane of a bank: slot number, offset, footprint. -/
def State.laneSlots (s : State) (core bank lane : Nat) : List (Nat × Nat × Nat) :=
  (s.threads.filter fun p => sidCore p.1 == core && sidBank p.1 == bank && sidLane p.1 == lane).map fun p =>
    (sidSlot p.1, p.2.off, ((tget s.teams p.2.team).map fun t => footprint t.hdr).getD 0)

/-- One new slot of `f` bytes: the lowest free number, at the lowest free offset (R11). -/
def pickSlot (used : List (Nat × Nat × Nat)) (f : Nat) : Option (Nat × Nat) :=
  let free := fun o => o + f ≤ 49152 && !used.any fun u => o < u.2.1 + u.2.2 && u.2.1 < o + f
  match findFrom (fun n => !used.any fun u => u.1 == n) 64 0,
      minBy id ((0 :: used.map fun u => u.2.1 + u.2.2).filter free) with
  | some n, some o => some (n, o)
  | _, _ => none

/-- `n` new slots of a lane, in the order taken. -/
def pickSlots : Nat → List (Nat × Nat × Nat) → Nat → Option (List (Nat × Nat))
  | 0, _, _ => some []
  | n + 1, used, f =>
    match pickSlot used f with
    | none => none
    | some q => (pickSlots n ((q.1, q.2, f) :: used) f).map fun r => q :: r

/-- Slots for a whole team in a bank: for each lane, those of its ranks in order; none where a lane has no room. -/
def State.teamSlots (s : State) (core bank : Nat) (h : Header) : Option (List (List (Nat × Nat))) :=
  let n := h.teamSize
  (List.range (min n 32)).foldl (fun acc lane =>
    match acc, pickSlots ((n + 31 - lane) / 32) (s.laneSlots core bank lane) (footprint h) with
    | some l, some q => some (l ++ [q])
    | _, _ => none) (some [])

/-- Free slots of a bank. (DESIGN CHOICE: log 25) -/
def State.freeSlots (s : State) (core bank : Nat) : Nat :=
  2048 - (s.threads.filter fun p => sidCore p.1 == core && sidBank p.1 == bank).length

/-- Banks of a core that are assigned to a context (R268). -/
def CoreSt.banksOf (c : CoreSt) (ctx : Nat) : List Nat :=
  let b := c.bankctx.toNat
  (if b / 128 % 2 == 1 && b % 64 == ctx then [0] else [])
    ++ (if b / 32768 % 2 == 1 && b / 256 % 64 == ctx then [1] else [])

/-- Segment ranges held by resident teams of a cluster: first segment and count. -/
def State.allocations (s : State) (cl : Nat) : List (Nat × Nat) :=
  s.teams.filterMap fun p =>
    if p.2.core / 8 = cl && !p.2.gone && (s.ctx p.2.ctx).saved.isNone && p.2.allocSegs != 0 then some (p.2.allocOff / 4096, p.2.allocSegs) else none

/-- The lowest run of `n` free segments in a context's granules of a cluster (R172, R173). (DESIGN CHOICE: log 25) -/
def State.pickSegs (s : State) (ctx cl n : Nat) : Option Nat :=
  if n = 0 then some 0 else
    let used := s.allocations cl
    let c := s.cluster cl
    let starts := (c.owner.map fun p => p.1 * 16) ++ used.map fun u => u.1 + u.2
    let fits := fun a =>
      (List.range ((a + n - 1) / 16 - a / 16 + 1)).all (fun i => c.granuleOf ctx (a / 16 + i))
        && !used.any fun u => a < u.1 + u.2 && u.1 < a + n
    minBy id (starts.filter fits)

/-- The core and bank of a cluster that take a team: the most free slots, ties to the lower core; a popping core that
can take it comes first (R173, R201). (DESIGN CHOICE: log 25) -/
def State.pickCore (s : State) (k : Card) (cl : Nat) : Option (Nat × Nat) :=
  let banks := (List.range 8).flatMap fun i => ((s.core (cl * 8 + i)).banksOf k.ctx).map fun b => (cl * 8 + i, b)
  let can := banks.filter fun p =>
    (k.cores / 2 ^ (p.1 % 8) % 2 == 1) && (k.bank.all fun b => b == p.2) && (s.teamSlots p.1 p.2 k.hdr).isSome
  let pref := can.filter fun p => k.prefer == some p.1
  maxBy (fun p => s.freeSlots p.1 p.2) (if pref.isEmpty then can else pref)

/-- Core, bank and first segment for the next team of a card in a cluster; none where the cluster is being replaced (R377) or
out of service (R278). -/
def State.pickPlace (s : State) (k : Card) (cl : Nat) : Option (Nat × Nat × Nat) :=
  match (if s.replacing cl || (s.cluster cl).down then none else s.pickCore k cl), s.pickSegs k.ctx cl (cardSegs k.words) with
  | some (c, b), some g => some (c, b, g)
  | _, _ => none

/-- Free slots of a context's banks in a cluster (R191). -/
def State.clusterFree (s : State) (ctx cl : Nat) : Nat :=
  (List.range 8).foldl (fun a i =>
    ((s.core (cl * 8 + i)).banksOf ctx).foldl (fun a b => a + s.freeSlots (cl * 8 + i) b) a) 0

/-- The WID of the next team to place, in increasing WID (R173): those to be placed again lie below those never placed. -/
def Card.nextWid (k : Card) : Word := (minBy BitVec.toNat k.again).getD (teamWid k.hdr k.words k.next)

/-- The affinity group of a team (R31): the fields from A on. -/
def Card.affinity (k : Card) (wid : Word) : Word := wid >>> (k.hdr.shift k.hdr.ab)

/-- Where the next team of a spread card goes: with the last of its affinity group, else where most slots are free
(R191). -/
def State.spreadPlace (s : State) (k : Card) : Option (Nat × Nat × Nat) :=
  match (k.lastOf.find? fun p => p.1 == k.affinity k.nextWid).bind fun p => s.pickPlace k p.2 with
  | some p => some p
  | none =>
    let can := (s.ctx k.ctx).clusters.filter fun cl => (s.pickPlace k cl).isSome
    (maxBy (fun cl => s.clusterFree k.ctx cl) can).bind fun cl => s.pickPlace k cl

/-- Where the next team of a ready card goes (R173, R191). A card of a cluster that is out of service goes to those that
survive (R278), but not an act's. (DESIGN CHOICE: log 25) (DESIGN CHOICE: log 50) -/
def State.placeFor (s : State) (k : Card) : Option (Nat × Nat × Nat) :=
  match k.place with
  | .placed => none
  | .ready cl => if (s.cluster cl).down && k.act.isNone then s.spreadPlace k else s.pickPlace k cl
  | .spread => s.spreadPlace k

/-- A queue of a Bruin engine, empty. -/
def BruinQ.fresh : BruinQ :=
  { cmds := [], accepted := 0, done := 0, prog := none, stopped := false, stalled := false, tileWait := none,
    lastServed := 0, parked := false, since := 0 }

/-- A team as it is launched (R22, R23, R154, R175, R181, R218, R318): its facts, and the rest at its start. -/
def Team.fresh (ctx card core bank : Nat) (h : Header) (k : Vector Word 32) (base : Word) (off segs : Nat) : Team :=
  { ctx := ctx, card := card, core := core, bank := bank, hdr := h, k := k, base := base, count := h.teamSize,
    allocOff := off, allocSegs := segs, issued := 0, frozen := false, killed := false, failed := false,
    w := Vector.replicate 8 Queue.fresh, rv := Vector.replicate 24 { exp := 0, ph := false, cur := 0, nxt := 0 },
    cv := Vector.replicate 16 { cnt := 0, sig := 0, armed := false, cmd := 0, latch := none },
    cf := Vector.replicate 16 0, bruin := BruinQ.fresh, tiles := [],
    rays := { rays := [], accepted := 0, done := 0, stopped := false, stalled := false, waiting := none, got := [] }, act := none,
    resumption := none, finished := false, gone := false, lost := none }

/-- The uniform registers of a team (R22, R23). -/
def uniforms (args : List Word) (clubase : Word) (id : BitVec 32) (base : Word) (ns : Nat) : Vector Word 32 :=
  Vector.ofFn fun i : Fin 32 =>
    if i.val < 28 then wordAt args i.val
    else if i.val = 28 then clubase
    else if i.val = 29 then id.setWidth 64
    else if i.val = 30 then base
    else wd ns

/-- A thread as it starts (R10, R33). -/
def Thread.fresh (h : Header) (team off : Nat) (pc wid : Word) : Thread :=
  { team := team, off := off, pc := pc, wid := wid, v := Vector.replicate 32 (.known 0), vdead := 0xFFFFFFFF#32,
    q := Vector.replicate 16 (.known 0), b0 := none, b1 := none, preds := 0,
    x := List.replicate h.xsize { val := .known 0, dead := true }, cond := .filed, pb := 0, ah := 0, watch := none,
    owed := [], dropped := false }

/-- The threads of a team are created and filed in increasing rank (R30, R143). -/
def State.startThreads (s : State) (tid core bank : Nat) (h : Header) (base : Word) (slots : List (List (Nat × Nat))) :
    Nat → Nat → State
  | 0, _ => s
  | n + 1, r =>
    match (slots.getD (r % 32) [])[r / 32]? with
    | none => s.startThreads tid core bank h base slots n (r + 1)
    | some (slot, off) =>
      let sid := sidOf core bank (r % 32) slot
      let pc := h.addr + wd h.entry
      let th := Thread.fresh h tid off pc (base + wd r)
      (({ s with threads := tset s.threads sid th }.touch sid (List.range 16)).fileThread sid pc).startThreads tid core bank h base slots n (r + 1)

/-- Fresh segments of an allocation are live and read as zero (R174). -/
def State.freshSegs (s : State) (cl first n : Nat) : State :=
  (List.range n).foldl (fun s i => (s.killSeg cl (first + i)).wakeSeg cl (first + i)) s

/-- The render lines of a strip are zero; its halos stay (R332). -/
def State.zeroLines (s : State) (d : List Word) (g : Nat) : State :=
  s.replaceMem (odPixel d g 0 (odHL d)) (List.replicate (8 * odRW d * odRH d) 0)

/-- The team of an act has been placed: the Carousel writes the strip's render lines zero, and the rasteriser may start
(R332). -/
def State.actPlaced (s : State) (c tid : Nat) (k : Card) : State :=
  match k.act with
  | none => s
  | some a =>
    if a.output then s
    else
      let d := (s.stream a.stream).odesc
      (s.zeroLines d (odRunning d a.frame a.strip)).updStream a.stream fun t =>
        { t with acts := t.acts.map fun o =>
            if o.card = c then { o with team := some tid, zeroed := true, rasterised := false } else o }

/-- The next team of a card is placed and launched. -/
def State.launchTeam (s : State) (c : Nat) (core bank seg : Nat) : State :=
  match tget s.cards c with
  | none => s
  | some k =>
    match s.teamSlots core bank k.hdr with
    | none => s
    | some slots =>
      let cl := core / 8
      let wid := k.nextWid
      let segs := cardSegs k.words
      let tid := s.fresh
      let id := (wordAt k.words 0).setWidth 32
      let clubase := if segs = 0 then 0 else (s.ctx k.ctx).clubase + wd (seg * 4096)
      let u := uniforms k.args clubase id wid s.ns
      let t := { Team.fresh k.ctx c core bank k.hdr u wid (seg * 4096) segs with act := k.act }
      let first := !k.started
      let s := if first then
          let s := match k.journal with | some n => s.journalWrite n k.addr 2 | none => s
          (s.cardWrite k.ctx k.addr 13 (wd s.ns)).traceRec cl 1 (core % 8) k.ctx (id.setWidth 64)
        else s
      let s := { s.bump with teams := tset s.teams tid t }.freshSegs cl seg segs
      let s := s.updCard c fun k =>
        { k with started := true, again := k.again.erase wid, next := if k.again.isEmpty then k.next + 1 else k.next,
                 lastOf := (k.affinity wid, cl) :: k.lastOf.filter fun p => p.1 != k.affinity wid }
      let s := (s.startThreads tid core bank k.hdr wid slots t.count 0).actPlaced c tid k
      match tget s.cards c with
      | some k => if k.next = k.total && k.again.isEmpty then s.leaveQueue c else s
      | none => s

/-- Teams of one card are placed until one does not fit. -/
def State.placeTeams (s : State) (c : Nat) : Nat → State
  | 0 => s
  | n + 1 =>
    match tget s.cards c with
    | none => s
    | some k =>
      match s.placeFor k with
      | none => s
      | some (core, bank, seg) => (s.launchTeam c core bank seg).placeTeams c n

/-- The queues that hold ready cards, in the order they are examined: clusters rising, contexts rising, then spread.
(DESIGN CHOICE: log 25) -/
def State.readyQueues (s : State) : List (CardPlace × Nat) :=
  let cs := s.cards.map Prod.snd
  let keys := fun p : CardPlace => (List.range 64).filterMap fun x =>
    if cs.any fun k => k.ctx == x && k.place == p then some (p, x) else none
  (List.range 24).flatMap (fun cl => keys (.ready cl)) ++ keys .spread

/-- A ready card has a team that can be placed now. -/
def State.placeable (s : State) : Bool :=
  s.cards.any fun p => !p.2.overflow && p.2.place != .placed && !(s.ctx p.2.ctx).away && (s.placeFor p.2).isSome

/-- READY_QUEUE_SCAN (R191, R193): teams of ready cards are placed at the end of a clock. -/
def execReadyQueueScan (s : State) : Host.Outcome State Fault Refusal :=
  if s.placeable then
    .next (s.readyQueues.foldl (fun s q =>
      if (s.ctx q.2).away then s
      else (s.queueCards q.1 q.2).foldl (fun s c => s.placeTeams c 786432) s) s)
  else .next s

end Sys2Proof.Machine
end

