-- ==== Sys2Proof/Machine/Retire.lean ====
section
/-! DEFINITION. The end of teams and cards: the kill of a team (R274), retirement of teams (R174, R230) and cards (R192 to
R195), outcomes and deadlines (R196), errors of the slice (R185, R197). -/

namespace Sys2Proof.Machine

/-! ### Continuation records as memory (R203, R207) -/

/-- Address of record `i` of a context's pool in a cluster. -/
def State.recordAddr (s : State) (cl ctx i : Nat) : Word := tgetD (s.cluster cl).cpbase ctx 0 + wd (256 * i)

/-- Records in a context's pool of a cluster. -/
def State.poolSize (s : State) (cl ctx : Nat) : Nat := tgetD (s.cluster cl).cpn ctx 0

/-- The words of a record; zero where its memory cannot be read. -/
def State.readRecord (s : State) (cl ctx i : Nat) : List Word :=
  leWords 32 ((s.agentRead ctx (s.recordAddr cl ctx i) false 256).getD [])

/-- STATE of a record: 0 free, 1 waiting, 2 ready, 3 on a deque. -/
def recordState (ws : List Word) : Nat := bits (wordAt ws 0) 33 32

/-- STATE of a record is set. -/
def State.setRecord (s : State) (cl ctx i st : Nat) : State :=
  let w := wordAt (s.readRecord cl ctx i) 0
  let w' := wd (w.toNat - bits w 33 32 * 2 ^ 32 + st * 2 ^ 32)
  (s.agentWrite ctx (s.recordAddr cl ctx i) false (leBytes 8 w'.toNat)).getD s

/-- A continuation handle (R198). -/
def handleOf (cl i : Nat) : Word := wd (0xFF * 2 ^ 56 + cl * 2 ^ 16 + i)

/-- A handle leaves the deques of its context, wherever its parts have come to (R277), and what a swap has saved of them.
(DEDUCED: log 31) -/
def State.dropHandle (s : State) (ctx : Nat) (h : Word) : State :=
  let s := s.updCtx ctx fun c => { c with saved := c.saved.map fun v => { v with parts := v.parts.map fun p =>
    (p.1, p.2.1, p.2.2.filter fun x => x != h) } }
  { s with cores := tmap s.cores fun _ k => (k.banksOf ctx).foldl (fun k b =>
      { k with deque := vset k.deque b ((vget k.deque b []).filter fun x => x != h) }) k }

/-- Records of a card whose WID a test accepts are discarded: each becomes free (R207). (DEDUCED: log 31) -/
def State.discardRecords (s : State) (c : Nat) (p : Word → Bool) : State :=
  match tget s.cards c with
  | none => s
  | some k =>
    if k.records = 0 then s
    else
      (List.range 24).foldl (fun s cl =>
        (List.range (s.poolSize cl k.ctx)).foldl (fun s i =>
          let ws := s.readRecord cl k.ctx i
          if recordState ws != 0 && wordAt ws 3 == k.addr && p (wordAt ws 2) then
            let s := (s.setRecord cl k.ctx i 0).dropHandle k.ctx (handleOf cl i)
            let s := { s with clusters := tmap s.clusters fun _ x =>
              { x with resume := x.resume.filter fun r => !(r.ctx == k.ctx && r.cluster == cl && r.index == i) } }
            s.updCard c fun k => { k with records := k.records - 1, cluster := cl }
          else s) s) s

/-! ### The kill of a team (R274) -/

/-- The side-log entries of a team, by number. -/
def State.loggedOf (s : State) (tid : Nat) : List Nat :=
  (s.ops.filter fun p => p.2.logged && p.2.team == tid).map Prod.fst

/-- An access in flight leaves, and its write counts as complete. -/
def State.dropOp (s : State) (id : Nat) : State :=
  match tget s.ops id with
  | none => s
  | some o =>
    let s := { s with ops := tdel s.ops id }.updCore o.core fun c => { c with sideLog := c.sideLog.erase id }
    match o.wnum with
    | some n => s.completeWrite o.core o.bank n
    | none => s

/-- A team's Bruin and ray queues are discarded, without records (R230, R318). -/
def State.discardQueues (s : State) (tid : Nat) : State :=
  match tget s.teams tid with
  | none => s
  | some t =>
    let s := t.bruin.cmds.foldl (fun s e =>
      let s := match e.wnum with | some n => s.completeWrite t.core t.bank n | none => s
      match e.tok with | some k => s.fillTok e.sid k 0 | none => s) s
    let s := t.rays.rays.foldl (fun s r =>
      let s := s.completeWrite t.core t.bank r.wnum
      match r.tok with | some k => s.fillTok r.sid k 0 | none => s) s
    s.updTeam tid fun t =>
      { t with bruin := { t.bruin with cmds := [], prog := none }, rays := { t.rays with rays := [], waiting := none, got := [] },
               cv := Vector.replicate 16 { cnt := 0, sig := 0, armed := false, cmd := 0, latch := none } }

/-- A team whose context is swapped out loses what the swap has saved of it. -/
def State.dropSaved (s : State) (tid : Nat) (t : Team) : State :=
  let mine := fun p : Nat × Nat => p.1 == t.core / 8 && t.allocOff / 4096 ≤ p.2 && decide (p.2 < t.allocOff / 4096 + t.allocSegs)
  s.updCtx t.ctx fun c => { c with saved := c.saved.map fun v =>
    let ids := (v.threads.filter fun p => p.2.team == tid).map Prod.fst
    { v with threads := v.threads.filter fun p => p.2.team != tid,
             bins := v.bins.map fun b => (b.1, b.2.1, { b.2.2 with filed := b.2.2.filed.filter fun x => !ids.contains x.1 }),
             segs := v.segs.filter fun p => !mine p,
             cells := v.cells.filter fun p => !((segsOf p.1 1).any mine) } }

/-- A team's allocation is freed and its tiles with it (R174, R230): the segments become dead. Its card retires on the
cluster of the last that goes (R192). -/
def State.freeTeam (s : State) (tid : Nat) : State :=
  match tget s.teams tid with
  | none => s
  | some t =>
    let s := if (s.ctx t.ctx).saved.isSome then s.dropSaved tid t else (List.range t.allocSegs).foldl (fun s i => s.killSeg (t.core / 8) (t.allocOff / 4096 + i)) s
    (s.updTeam tid fun t => { t with gone := true, finished := true, tiles := [] }).updCard t.card fun k =>
      { k with cluster := t.core / 8 }

/-- The accesses of a team that never go on once it is killed: its side-log entries, and those that wait for a REPLAY. -/
def State.givenUp (s : State) (tid : Nat) : List Nat :=
  (s.ops.filter fun p => (p.2.logged || p.2.stuck) && p.2.team == tid).map Prod.fst

/-- An access of a team is still in flight, or a `post` to another cluster whose answer one of its threads awaits (R200). -/
def State.inFlight (s : State) (tid : Nat) : Bool :=
  s.ops.any (fun p => p.2.team == tid) || s.posts.any fun p => (tget s.threads p.2.sid).any fun th => th.team == tid

/-- One team's threads end and everything it holds is discarded; its allocation is freed once the accesses that are in
flight are performed (R174, R274). -/
def State.killOne (s : State) (tid : Nat) : State :=
  let s := s.discardQueues tid
  let s := (s.threadsOf tid).foldl (fun s sid => s.endThread sid) s
  let s := (s.givenUp tid).foldl (fun s id => s.dropOp id) s
  let s := s.updTeam tid fun t => { t with killed := true, finished := true }
  if s.inFlight tid then s else s.freeTeam tid

/-- The base that a team's records and resumption teams go by: its own, or that of the team it resumes. -/
def Team.origin (t : Team) : Word := t.resumption.getD t.base

/-- A WID belongs to the team with that base (R29). -/
def Header.ofTeam (h : Header) (base wid : Word) : Bool :=
  wid.toNat / 2 ^ h.teamBits * 2 ^ h.teamBits == base.toNat

/-- A TEAM IS KILLED (R274): with it its records and resumption teams. -/
def State.killTeam (s : State) (tid : Nat) : State :=
  match tget s.teams tid with
  | none => s
  | some t =>
    if t.gone then s
    else
      let rs := (s.teams.filter fun p => p.2.card == t.card && !p.2.gone && p.2.resumption == some t.base).map Prod.fst
      let s := (tid :: rs).foldl (fun s i => s.killOne i) s
      s.discardRecords t.card (t.hdr.ofTeam t.origin)

/-- Resident teams of a card. -/
def State.teamsOf (s : State) (c : Nat) : List Nat := (s.teams.filter fun p => p.2.card == c && !p.2.gone).map Prod.fst

/-- Every team, resumption team and record of a card is killed or discarded; teams not placed never start. -/
def State.killCard (s : State) (c : Nat) (f : Outcomes → Outcomes) : State :=
  let s := (s.teamsOf c).foldl (fun s t => s.killOne t) s
  let s := s.discardRecords c fun _ => true
  let s := s.updCard c fun k => { k with next := k.total, again := [], out := f k.out }
  if (tget s.cards c).any fun k => k.place != .placed then s.leaveQueue c else s

/-! ### Retirement -/

/-- A team's threads, side-log entries and other accesses, and its queues are done (R128, R174, R230, R318). -/
def State.teamDone (s : State) (tid : Nat) : Bool :=
  match tget s.teams tid with
  | none => false
  | some t => t.finished && !t.gone && !s.inFlight tid && t.bruin.cmds.isEmpty && t.rays.rays.isEmpty

/-- TEAM_RETIRE (R174, R230): the allocation and the tiles are freed. (DEDUCED: log 9) -/
def execTeamRetire (team : Nat) (s : State) : Host.Outcome State Fault Refusal :=
  if s.teamDone team then .next (s.freeTeam team) else .next s

/-- A card is open (R192). -/
def State.cardOpen (s : State) (c : Nat) : Bool :=
  match tget s.cards c with
  | none => false
  | some k => k.next < k.total || !k.again.isEmpty || k.records != 0 || s.teams.any fun p => p.2.card == c && !p.2.gone

/-- A card still has something to run: as `cardOpen`, but a team whose last thread has ended is over (R334). -/
def State.cardRuns (s : State) (c : Nat) : Bool :=
  match tget s.cards c with
  | none => false
  | some k => k.next < k.total || !k.again.isEmpty || k.records != 0
      || s.teams.any fun p => p.2.card == c && !p.2.gone && !p.2.finished

/-- A counted write of the card's threads is not complete (R192 step 1). -/
def State.cardWrites (s : State) (c : Nat) : Bool :=
  let mine := fun t : Nat => (tget s.teams t).any fun x => x.card == c
  s.ops.any (fun p => p.2.wnum.isSome && mine p.2.team)
    || s.ctxs.any fun x => x.2.chains.any fun y => y.2.tails.any fun w => mine w.team

/-- CODE of a card (R196). -/
def Card.code (k : Card) : Nat :=
  let o := k.out
  if o.badVersion then 7 else if o.powerKill then 5 else if o.deadlineMiss then 6 else if o.killed then 2
  else if o.retryExhausted then 4 else if o.faulted then 1 else if k.tries ≠ 0 then 3 else 0

/-- STATUS of a card as it retires (R189). -/
def Card.status (k : Card) : Word := wd (2 ^ 63 + k.tries % 16 * 4096 + boolNat k.late * 256 + k.code)

/-- CARDID. -/
def Card.id (k : Card) : BitVec 32 := (wordAt k.words 0).setWidth 32

/-- SUCCN. -/
def Card.succn (k : Card) : Nat := bits (wordAt k.words 6) 31 16

/-- Address of entry `i` of the successor list. -/
def Card.succAddr (k : Card) (i : Nat) : Word := wordAt k.words 7 + wd (8 * i)

/-- What entry `i` of a successor list comes to (R194, R195). -/
inductive SuccEntry where
  /-- the list cannot be read here -/
  | stop
  | skip
  | bad
  | underflow (a : Word)
  | dec (a : Word) (pred : Nat)
deriving DecidableEq, Repr

/-- Entry `i` of a card's successor list. (DEDUCED: log 26) (DESIGN CHOICE: log 70) -/
def State.succEntry (s : State) (k : Card) (i : Nat) : SuccEntry :=
  match s.agentRead k.ctx (k.succAddr i) false 8 with
  | none => .stop
  | some bs =>
    let e := wd (leNat bs)
    if e = 0 then .skip
    else if (s.cardAddrBad k.ctx e).isSome then .bad
    else
      match s.agentRead k.ctx (e + 48) false 2, s.agentWrite k.ctx (e + 48) false [] with
      | some p, some _ => if leNat p = 0 then .underflow e else .dec e (leNat p)
      | _, _ => .bad

/-- The next entry takes a PRED to zero while the journal has no place (R353). (DEDUCED: log 26) -/
def State.succWaits (s : State) (k : Card) : Bool :=
  k.succ < k.succn && (match s.succEntry k k.succ with | .dec _ 1 => !s.journalFree | _ => false)

/-- The highest clock that a cluster's grant covers, in MHz (R370). (DESIGN CHOICE: log 54) -/
def State.topClock (s : State) (cl : Nat) : Nat := 1200 + 100 * (Config.clockSteps (s.cluster cl).grant % 9)

/-- A cluster's clock is set; a change is marked by a SYNC record, after those that the old setting has made due (R355). -/
def State.setClock (s : State) (cl f : Nat) : State :=
  if f = (s.cluster cl).fmhz then s
  else (s.traceSync cl).updCluster cl fun c => { c with
    fmhz := f, lcycAcc := s.lcycParts cl, lcycAt := s.clk, trace := { c.trace with needSync := c.trace.needSync || c.trace.en } }

/-- The clock one step up, within the grant; a cluster that has none, at the floor (R370) or before its first, stays.
(DESIGN CHOICE: log 54) -/
def State.stepUp (s : State) (cl : Nat) : State :=
  let c := s.cluster cl
  let f := c.fmhz
  if !c.floor && c.grant != 0 && f + 100 ≤ s.topClock cl then s.setClock cl (f + 100) else s

/-- The clock one step down, to 1.2 GHz. -/
def State.stepDown (s : State) (cl : Nat) : State :=
  let f := (s.cluster cl).fmhz
  if 1300 ≤ f then s.setClock cl (f - 100) else s

/-- THE JUGGLER (R372): a card's PRED, now `p`, is decremented by a retirement in a cluster. The cluster of the first of
several decrements is kept; at the final one that cluster's clock falls a step, and this
one's rises; in one and the same cluster the two steps cancel. (DESIGN CHOICE: log 54) -/
def State.juggle (s : State) (ctx : Nat) (a : Word) (cl p : Nat) : State :=
  let k := s.package
  match k.predFirst.find? fun x => x.1 == ctx && x.2.1 == a with
  | none => if p = 1 then s else { s with package := { k with predFirst := (ctx, a, cl) :: k.predFirst } }
  | some x =>
    if p ≠ 1 then s
    else if x.2.2 = cl then { s with package := { k with predFirst := k.predFirst.erase x } }
    else (({ s with package := { k with predFirst := k.predFirst.erase x } }).stepUp cl).stepDown x.2.2

/-- Step 4 of R192 from the entry reached on: the list is done, or acceptance waits. (DEDUCED: log 26) -/
def State.successors (s : State) (c : Nat) : Nat → State
  | 0 => s
  | n + 1 =>
    match tget s.cards c with
    | none => s
    | some k =>
      if k.succn ≤ k.succ || s.succWaits k then s
      else
        let next := fun s : State => s.updCard c fun k => { k with succ := k.succ + 1 }
        let record := fun (code : BitVec 5) (a : Word) =>
          s.engineRecord k.ctx k.id (wordAt k.words 3) k.cluster code false false a 0
        let s := s.agentTouch k.ctx (k.succAddr k.succ) false 8
        match s.succEntry k k.succ with
        | .stop => (record 0x13 (k.succAddr k.succ)).updCard c fun k => { k with succ := k.succn }
        | .skip => (next s).successors c n
        | .bad => (next (record 0x13 (k.succAddr k.succ))).successors c n
        | .underflow a => (next (record 0x12 a)).successors c n
        | .dec a p =>
          let s := ((s.agentWrite k.ctx (a + 48) false (leBytes 2 (p - 1))).getD s).juggle k.ctx a k.cluster p
          let s := if p = 1 then (s.accept k.ctx a .pred k.cluster id).1 else s
          (next s).successors c n

/-- Steps 2 and 3 of R192, with the journal record in state 11 (R353) and the trace record. -/
def State.finishCard (s : State) (c : Nat) : State :=
  match tget s.cards c with
  | none => s
  | some k =>
    let s := (s.cardWrite k.ctx k.addr 12 (wd s.ns)).cardWrite k.ctx k.addr 11 k.status
    let s := match k.journal with | some n => s.journalWrite n k.addr 3 | none => s
    let s := if cardCtl k.words ≠ 0xFFFF && s.namesEctx k.ctx (cardCtl k.words)
      then s.raiseTimeline k.ctx (cardCtl k.words) (wordAt k.words 10) else s
    let s := s.traceRec k.cluster 1 0 k.ctx (wd (k.id.toNat + 2 ^ 32))
    s.updCard c fun k => { k with phase := 1 }

/-- A retired card leaves the device; an act's stream learns its outcome. -/
def State.removeCard (s : State) (c : Nat) : State :=
  match tget s.cards c with
  | none => s
  | some k =>
    let s := { s with cards := tdel s.cards c, teams := s.teams.filter fun p => p.2.card != c }
    match k.act with
    | none => s
    | some a => s.updStream a.stream fun t =>
        { t with acts := t.acts.map fun o => if o.card == c then { o with closed := some k.code } else o }

/-- CARD_RETIREMENT may go on. -/
def State.cardDone (s : State) (c : Nat) : Bool :=
  match tget s.cards c with
  | none => false
  | some k => !s.cardOpen c && (if k.phase = 0 then !s.cardWrites c else !s.succWaits k)

/-- CARD_RETIREMENT (R192 to R195): the four steps, in order. -/
def execCardRetirement (card : Nat) (s : State) : Host.Outcome State Fault Refusal :=
  if s.cardDone card then
    let s := match tget s.cards card with
      | some k => if k.phase = 0 then s.finishCard card else s
      | none => s
    let s := s.successors card 65536
    match tget s.cards card with
    | some k => .next (if k.succn ≤ k.succ then s.removeCard card else s)
    | none => .next s
  else .next s

/-! ### Deadlines (R196) -/

/-- A card's deadline has come and has not been dealt with; an act's is ACT_ABANDON's (R340). -/
def State.deadlineDue (s : State) (c : Nat) : Bool :=
  match tget s.cards c with
  | none => false
  | some k =>
    wordAt k.words 8 != 0 && (wordAt k.words 8).toNat ≤ s.ns && s.cardOpen c && !k.late && !k.out.deadlineMiss
      && !k.act.any fun a => !a.output

/-- CARD_DEADLINE (R196): the card is killed, or marked LATE with DLSOFT. -/
def execCardDeadline (card : Nat) (s : State) : Host.Outcome State Fault Refusal :=
  if s.deadlineDue card then
    match tget s.cards card with
    | none => .next s
    | some k =>
      if bitAt (wordAt k.words 0) 33 then .next (s.updCard card fun k => { k with late := true })
      else .next (s.killCard card fun o => { o with deadlineMiss := true })
  else .next s

/-! ### Errors of the slice and of storage (R185, R197, R275) -/

/-- A card's team is to be placed again under a WID: it stands in the queue that the card entered, in its order of
acceptance (R197, R278). -/
def State.placeAgain (s : State) (c : Nat) (wid : Word) : State :=
  match tget s.cards c with
  | none => s
  | some k =>
    let s := s.updCard c fun k => { k with again := k.again ++ [wid] }
    if k.place ≠ .placed then s else s.enqueue c k.home

/-- A team is killed by an uncorrectable error, and its card's IDEM decides what follows (R197). -/
def State.uncorrectable (s : State) (tid : Nat) (addr : Word) : State :=
  match tget s.teams tid with
  | none => s
  | some t =>
    if t.gone || t.killed then s
    else
      let s := s.engineRecord t.ctx (s.cardId t) t.base (t.core / 8) 0x19 true false addr 0
      let s := s.killTeam tid
      match tget s.cards t.card with
      | none => s
      | some k =>
        if !k.hdr.idem then s.updCard t.card fun k => { k with out := { k.out with faulted := true } }
        else if bits (wordAt k.words 0) 51 48 ≤ k.tries then
          s.updCard t.card fun k => { k with out := { k.out with retryExhausted := true } }
        else (s.updCard t.card fun k => { k with tries := k.tries + 1 }).placeAgain t.card t.origin

/-- The resident team whose allocation holds a slice offset. -/
def State.teamAt (s : State) (cl off : Nat) : Option Nat :=
  (s.teams.find? fun p => p.2.core / 8 == cl && !p.2.gone && (s.ctx p.2.ctx).saved.isNone && p.2.allocOff ≤ off
    && off < p.2.allocOff + p.2.allocSegs * 4096).map Prod.fst

/-- The latest number below `count` that is `i` modulo `n`. -/
def latestMod (n i count : Nat) : Option Nat := if i < count then some (count - 1 - (count - 1 - i) % n) else none

/-- The strip whose slot of a ring of a stream holds byte `off` of a cluster's slice: none outside its rings, and inside the
latest started in its render slot or the latest ready one in its output slot, if there is one. -/
def Stream.stripAt (t : Stream) (cl off : Nat) : Option (Option Nat) :=
  let d := t.odesc
  let inRing := fun r : Nat × Nat => r.1 ≤ off && off < r.1 + r.2
  if t.state = 0 || odCluster d != cl then none
  else if inRing (odRenderRing d) then
    some ((latestMod (bits (wordAt d 0) 15 12) ((off - (odRenderRing d).1) / odRenderSlot d)
      (odRunning d t.nextF t.nextS)).filter fun g => decide (odRunning d t.firstf.toNat 0 ≤ g))
  else if inRing (odOutputRing d) then
    let i := (off - (odOutputRing d).1) / odOutputSlot d
    some (maxBy id ((t.slots.filter fun p => p.1 % bits (wordAt d 0) 11 8 == i && p.2 == .ready).map Prod.fst))
  else none

/-- An uncorrectable error in a ring slot (R306): a record against the stream's context, and the slot is bad until its next
write. (DESIGN CHOICE: log 65) (DEDUCED: log 67) -/
def State.ringError (s : State) (cl off : Nat) : State :=
  match s.streams.findSome? fun p : Nat × Stream => (p.2.stripAt cl off).map fun g => (p.1, p.2, g) with
  | none => s
  | some (n, t, g) =>
    (s.engineRecord t.ctx 0 (wd (0x3000 + n)) cl 0x19 false false (wd (cl * 2 ^ 32 + off)) 0).updStream n fun t =>
      match g with
      | some g => { t with slots := tset t.slots g .bad }
      | none => t

/-- The units of a saved state that hold part of it, with the first byte of each. -/
def usedUnits : List (Nat × Nat) → Nat → Nat → List (Nat × Nat)
  | [], _, _ => []
  | (u, n) :: r, at', total => if total ≤ at' then [] else (u, at') :: usedUnits r (at' + n) total

/-- Bytes of a saved state in all. -/
def Saved.bytes (v : Saved) : Nat := v.sizes.foldl (fun n p => n + p.2) 0

/-- The teams whose saved state a unit of shadow storage holds (R275); the context's own state is every team's.
(DESIGN CHOICE: log 65) -/
def Saved.teamsIn (v : Saved) (u : Nat) : List Nat :=
  let size := ((v.units.find? fun x => x.1 == u).map Prod.snd).getD 0
  match (usedUnits v.units 0 v.bytes).find? fun x => x.1 == u with
  | none => []
  | some (_, a) =>
    let held := (v.sizes.foldl (fun (q : Nat × List (Option Nat)) p =>
      (q.1 + p.2, if rangesMeet q.1 p.2 a size then q.2 ++ [p.1] else q.2)) (0, [])).2
    if held.contains none then v.sizes.filterMap Prod.fst else held.filterMap id

/-- An uncorrectable error in a unit of shadow storage kills every team whose saved state it holds (R275).
(DESIGN CHOICE: log 65) -/
def State.shadowError (s : State) (u : Nat) (addr : Word) : State :=
  (s.ctxs.flatMap fun c => (c.2.saved.map fun v => v.teamsIn u).getD []).foldl (fun s t => s.uncorrectable t addr) s

/-- A KIND 11 granule: shadow storage (R169). -/
def State.isShadow (s : State) (cl off : Nat) : Bool :=
  (tgetD (s.cluster cl).owner (off / 65536) 0).toNat / 16384 == 3

/-- An uncorrectable error at an offset of a slice: it kills the team whose allocation it is in (R185), or by the granule's
kind the teams that are saved there (R275); else it is a ring slot's (R306). (DESIGN CHOICE: log 65) -/
def State.sliceError (s : State) (cl off : Nat) : State :=
  let addr := wd (cl * 2 ^ 32 + off)
  match s.teamAt cl off with
  | some t => s.uncorrectable t addr
  | none => if s.isShadow cl off then s.shadowError (1024 + 512 * cl + off / 65536) addr else s.ringError cl off

/-- PATROL_SCRUB (R185): the scrubber reads a word of a live segment, or of shadow storage; `err` is what its check bits
show, beside an error that the word has. (DESIGN CHOICE: log 65) -/
def execPatrolScrub (cluster off err : Nat) (s : State) : Host.Outcome State Fault Refusal :=
  let p := sliceLoc cluster (off % 2 ^ 25)
  if !s.segLive cluster (off / 4096) && !s.isShadow cluster (off % 2 ^ 25) then .next s
  else
    let flaw := tgetD s.flaws (p / 8) 0
    if err = 2 then .next (s.sliceError cluster (off % 2 ^ 25))
    else if flaw = 2 then .next ({ s with flaws := tset s.flaws (p / 8) 3 }.sliceError cluster (off % 2 ^ 25))
    else if flaw ≠ 3 && (err = 1 || flaw = 1) then .next (s.correct p)
    else .next s

end Sys2Proof.Machine
end

