-- ==== Sys2Proof/Machine/Engine.lean ====
section
/-! DEFINITION. What the engines share: their accesses to memory (R221, R293, R391), the fields of a tensor descriptor and
its checks (R209 to R214), and its elements (R65, R211 to R213). -/

namespace Sys2Proof.Machine

/-! ### Accesses of an engine -/

/-- On whose behalf an engine reaches memory: context, cluster, the team whose SHARED window it sees, its TLB, whether
remote addresses are performed at their owner, and whether pages need ENG. -/
structure Eng where
  ctx : Nat
  cl : Nat
  team : Option Team
  tk : TlbKind
  remote : Bool
  eng : Bool
  /-- answers of owners that have come (R381); an acknowledgement has no bytes -/
  got : List RemoteData := []
  /-- the engine has no windows (R391) -/
  noWin : Bool := false

/-- Why an access of an engine does not go on: a remote address with the request to send, an unmapped page, a fault. -/
inductive EngStop where
  | remote (a : Word) (n : Nat) (kind : RemoteKind) (data : List Byte)
  | unmapped (a : Word) (write : Bool)
  | fault (code : BitVec 5) (a : Word)
deriving DecidableEq, Repr

/-- The places of an access's parts, in order, through the engine's TLB; the first part that fails decides. -/
def State.engParts (s : State) (e : Eng) (va : Word) (write : Bool) :
    List (Nat × Nat) → List (Nat × Nat) → State × Except EngStop (List (Nat × Nat))
  | [], ps => (s, .ok ps.reverse)
  | (o, k) :: r, ps =>
    match s.translateTlb e.cl e.tk e.ctx (va.toNat + o) { read := !write, write := write, exec := false, eng := e.eng } with
    | (s, .ok p _ _ _) => s.engParts e va write r ((p, k) :: ps)
    | (s, .unmapped _) => (s, .error (.unmapped (va + wd o) write))
    | (s, .prot _) => (s, .error (.fault 0x0D (va + wd o)))
    | (s, .owner _) => (s, .error (.fault 0x08 (va + wd o)))
    | (s, .flaw p) => (s, .error (.fault 0x19 (wd p)))

/-- A read of dead segments (R152). -/
def State.engDead (s : State) (va : Word) (write : Bool) (ps : List (Nat × Nat)) : Except EngStop (List (Nat × Nat)) :=
  if !write && ps.any (fun p => s.deadRange p.1 p.2) then .error (.fault 0x09 va) else .ok ps

/-- The places that `n` bytes at an address reach for an engine: windows (R391), then translation. -/
def State.engPlaces (s : State) (e : Eng) (va : Word) (n : Nat) (write : Bool) :
    State × Except EngStop (List (Nat × Nat)) :=
  let owner := va.toNat / 2 ^ 56
  if n = 0 then (s, .ok [])
  else if owner ≠ 0 then (s, .error (if e.remote && owner ≠ 255 then .remote va n .engRead [] else .fault 0x0D va))
  else
    match if e.noWin then none else (s.ctx e.ctx).window va with
    | some (.loc, _) => (s, .error (.fault 0x0D va))
    | some (.shared, o) =>
      match e.team with
      | none => (s, .error (.fault 0x0D va))
      | some t =>
        let size := t.allocSegs * 4096
        if size < o + n then (s, .error (.fault 0x07 (va + wd (max size o - o))))
        else (s, s.engDead va write [(sliceLoc e.cl (t.allocOff + o), n)])
    | some (.cluster, o) =>
      match s.unowned e.ctx e.cl o n with
      | some x => (s, .error (.fault 0x08 (va + wd (x - o))))
      | none => (s, s.engDead va write [(sliceLoc e.cl o, n)])
    | none =>
      match s.engParts e va write (pageParts va.toNat (n / 4096 + 2) 0 n) [] with
      | (s, .ok ps) => (s, s.engDead va write ps)
      | r => r

/-- An access of an engine to its places gets no completion from the host (R364): FABRIC_TIMEOUT. -/
def State.engSilent (s : State) (va : Word) (ps : List (Nat × Nat)) : Option (State × EngStop) :=
  (ps.findSome? fun p => s.silent p.1 p.2).map fun k => ({ s with flaws := tdel s.flaws k }, .fault 0x1A va)

/-- Bytes read by an engine; an uncorrectable error of LP6 stops it with the PA (R367). -/
def State.engRead (s : State) (e : Eng) (va : Word) (n : Nat) : State × Except EngStop (List Byte) :=
  match s.engPlaces e va n false with
  | (s, .ok ps) =>
    match s.engSilent va ps, ps.findSome? fun p => s.badWord p.1 p.2 with
    | some (s, x), _ => (s, .error x)
    | none, some p => (s, .error (.fault 0x19 (wd p)))
    | none, none => (ps.foldl (fun s p => s.noteRead p.1 p.2) s, .ok (ps.flatMap fun p => s.readWoken p.1 p.2))
  | (s, .error (.remote a m k d)) =>
    match e.got.find? fun r => r.addr == va && r.bytes.length == n with
    | some r => (s, .ok r.bytes)
    | none => (s, .error (.remote a m k d))
  | (s, .error x) => (s, .error x)

/-- Bytes stored at places, in order. -/
def State.storeParts (s : State) : List (Nat × Nat) → List Byte → State
  | [], _ => s
  | (p, n) :: r, bs => (s.store p (bs.take n)).storeParts r (bs.drop n)

/-- Bytes replaced at places, in order, as an atomic does it (R136). -/
def State.replaceParts (s : State) : List (Nat × Nat) → List Byte → State
  | [], _ => s
  | (p, n) :: r, bs => (s.replaceMem p (bs.take n)).replaceParts r (bs.drop n)

/-- Bytes written by an engine. -/
def State.engWrite (s : State) (e : Eng) (va : Word) (bs : List Byte) : State × Except EngStop Unit :=
  match s.engPlaces e va bs.length true with
  | (s, .ok ps) =>
    match s.engSilent va ps with
    | some (s, x) => (s, .error x)
    | none => (s.storeParts ps bs, .ok ())
  | (s, .error (.remote a m _ _)) =>
    if e.got.any fun r => r.addr == va && r.bytes.isEmpty then (s, .ok ()) else (s, .error (.remote a m .engWrite bs))
  | (s, .error x) => (s, .error x)

/-- Writes of an engine, in order; what stops one is given with the writes that are left, the stopped one first. -/
def State.engWrites (s : State) (e : Eng) : List (Word × List Byte) → State × Except (EngStop × List (Word × List Byte)) Unit
  | [] => (s, .ok ())
  | (a, bs) :: r =>
    match s.engWrite e a bs with
    | (s, .ok _) => s.engWrites e r
    | (s, .error x) => (s, .error (x, (a, bs) :: r))

/-! ### Fields of a descriptor (R209, R210) -/

/-- SPLIT. -/
def dSplit (d : List Word) : Nat := bits (wordAt d 0) 11 8

/-- VIEW. -/
def dView (d : List Word) : Nat := bits (wordAt d 0) 15 14

/-- The split that quantises into the tensor (R67). -/
def dxbSplit (d : List Word) : Nat := if bitAt (wordAt d 0) 13 then (if dEight d then 4 else 2) else dSplit d

/-- The scalar format of a format code. -/
def fmtOf : Nat → FFmt
  | 0 => f32
  | 1 => f16
  | 2 => bf16
  | _ => f64

/-! ### The checks of R214 -/

/-- Reserved fields of a descriptor, by its view. -/
def descReserved (d : List Word) : List (Nat × Nat × Nat) :=
  [(0, 12, 12), (0, 63, 16)] ++
    match dView d with
    | 1 => [(22, 63, 56), (23, 63, 0)]
    | 2 => [(21, 3, 0), (21, 15, 12), (21, 63, 20), (22, 63, 0), (23, 63, 0)]
    | _ => []

/-- A field of `VIEWP` and its range. -/
def unfoldFields : List (Nat × Nat × Nat × Nat × Nat) :=
  [(21, 47, 40, 1, 16), (21, 39, 32, 1, 16), (21, 31, 24, 1, 16), (21, 23, 16, 1, 16), (21, 15, 8, 1, 32),
   (21, 7, 0, 1, 32), (22, 55, 32, 0, 2 ^ 24 - 4097), (22, 31, 16, 1, 65535), (22, 15, 0, 1, 65535)]

/-- A word that must be zero. -/
def mustZero (d : List Word) (w : Nat) : Bool × Nat × Nat := (wordAt d w != 0, w, lowBit 64 (wordAt d w).toNat)

/-- The range checks of R214, in order, each with the word and bit it names. -/
def descRanges (d : List Word) : List (Bool × Nat × Nat) :=
  let r := dRank d
  let place := fun i => (3 + i / 2, 32 * (i % 2))
  let b := fmtBytes (dFmt d)
  let off := fun x : Int => fun n : Nat => x % n != 0
  [(decide (10 ≤ dFmt d), 0, 0), (dView d == 3, 0, 14), (r == 0 || decide (12 < r), 0, 4)]
  ++ (List.range 12).map (fun i =>
    if i < r then (dSize d i == 0, (place i).1, (place i).2)
    else (dSize d i != 0, (place i).1, (place i).2 + lowBit 32 (dSize d i)))
  ++ ((List.range 12).filter fun i => decide (r ≤ i)).map (fun i => mustZero d (9 + i))
  ++ (if dDxb d then
      [(dSize d 0 % 32 != 0, 3, 0), mustZero d 9]
      ++ (List.range 11).map (fun i => (decide (dStride d (i + 1) < 0) || off (dStride d (i + 1)) (dBlock d), 10 + i, 0))
      ++ [((wordAt d 1).toNat % dBlock d != 0, 1, 0), ((wordAt d 2).toNat % 2 != 0, 2, 0),
          (bitAt (wordAt d 0) 13 && dSplit d != 0, 0, 8)]
    else
      [((wordAt d 1).toNat % b != 0, 1, 0)] ++ (List.range 12).map (fun i => (off (dStride d i) b, 9 + i, 0))
      ++ [mustZero d 2, (dSplit d != 0, 0, 8 + lowBit 4 (dSplit d)), (bitAt (wordAt d 0) 13, 0, 13)])
  ++ (match dView d with
      | 0 => [mustZero d 21, mustZero d 22, mustZero d 23]
      | 1 => (r != 3 && r != 4, 0, 4) :: unfoldFields.map fun f =>
          let v := bits (wordAt d f.1) f.2.1 f.2.2.1
          (decide (v < f.2.2.2.1) || decide (f.2.2.2.2 < v), f.1, f.2.2.1)
      | _ => [])

/-- The first failing check of R214: code and EXTRA. (DESIGN CHOICE: log 23) -/
def descCheck (d : List Word) : Option (BitVec 5 × Nat) :=
  match reservedAt d (descReserved d) with
  | some (w, b) => some (0x03, extraAt w b)
  | none => (firstBad (descRanges d)).map fun p => (0x13, extraAt p.1 p.2)

/-! ### Elements (R211 to R213) -/

/-- Columns of the virtual matrix of an unfold view, and its rows (R213); of a plain matrix, its sizes. -/
def matCols (d : List Word) : Nat :=
  if dView d = 1 then dSize d 0 * bits (wordAt d 21) 7 0 * bits (wordAt d 21) 15 8 else dSize d 0

/-- Rows of a matrix operand. -/
def matRows (d : List Word) : Nat :=
  if dView d = 1 then bits (wordAt d 22) 15 0 * bits (wordAt d 22) 31 16 * (if dRank d = 4 then dSize d 3 else 1)
  else dSize d 1

/-- The element that A[m][k] of a matrix operand is, as an index of its tensor; none where it reads +0 (R213, R220). -/
def matIndex (d : List Word) (m k : Nat) : Option (List Nat) :=
  if dView d = 1 then
    let v := wordAt d 21
    let c := k % dSize d 0
    let t := k / dSize d 0
    let kx := t % bits v 7 0
    let ky := t / bits v 7 0
    let ow := bits (wordAt d 22) 15 0
    let oh := bits (wordAt d 22) 31 16
    let ox := m % ow
    let oy := m / ow % oh
    let n := m / (ow * oh)
    let x := ox * bits v 23 16 + kx * bits v 39 32
    let y := oy * bits v 31 24 + ky * bits v 47 40
    let px := bits v 55 48
    let py := bits v 63 56
    if bits v 15 8 ≤ ky ∨ (if dRank d = 4 then dSize d 3 else 1) ≤ n then none
    else if px ≤ x ∧ x - px < dSize d 1 ∧ py ≤ y ∧ y - py < dSize d 2 then
      some (if dRank d = 4 then [c, x - px, y - py, n] else [c, x - px, y - py])
    else none
  else if inside d [k, m] then some [k, m] else none

/-- Bits of an element of a format other than DXB. -/
def State.elemBits (s : State) (e : Eng) (d : List Word) (ix : List Nat) : State × Except EngStop Nat :=
  match s.engRead e (elemAddr d ix) (fmtBytes (dFmt d)) with
  | (s, .ok bs) => (s, .ok (leNat bs))
  | (s, .error x) => (s, .error x)

/-- Element and exponent pair of a DXB tensor. -/
def State.elemDxb (s : State) (e : Eng) (d : List Word) (ix : List Nat) : State × Except EngStop (Nat × Nat) :=
  let pos := ix.headD 0 % 32
  let a := blockAddr d ix + wd (if dEight d then pos else pos / 2)
  match s.engRead e a 1 with
  | (s, .error x) => (s, .error x)
  | (s, .ok bs) =>
    match s.engRead e (pairAddr d ix) 2 with
    | (s, .error x) => (s, .error x)
    | (s, .ok ps) =>
      let b := leNat bs
      (s, .ok (if dEight d then b else b / 16 ^ (pos % 2) % 16, leNat ps))

/-- The value of an element of a numeric tensor. -/
def State.elemNum (s : State) (e : Eng) (d : List Word) (ix : List Nat) : State × Except EngStop Num :=
  if dDxb d then
    match s.elemDxb e d ix with
    | (s, .ok (el, p)) => (s, .ok (dxbValue (dEight d) el (p % 256) (p / 256)))
    | (s, .error x) => (s, .error x)
  else
    match s.elemBits e d ix with
    | (s, .ok b) => (s, .ok ((fmtOf (dFmt d)).decode b))
    | (s, .error x) => (s, .error x)

/-- The bytes of a block's elements (R65). -/
def blockBytes (eight : Bool) : List Nat → List Byte
  | [] => []
  | a :: r =>
    if eight then BitVec.ofNat 8 a :: blockBytes eight r
    else match r with
      | [] => [BitVec.ofNat 8 (a % 16)]
      | b :: r' => BitVec.ofNat 8 (a % 16 + b % 16 * 16) :: blockBytes eight r'

/-- The writes of a block: its elements, then its exponent pair. -/
def blockWrites (d : List Word) (ix : List Nat) (pair : Nat) (els : List Nat) : List (Word × List Byte) :=
  [(blockAddr d ix, blockBytes (dEight d) els), (pairAddr d ix, leBytes 2 pair)]

end Sys2Proof.Machine
end

