-- ==== Sys2Proof/Machine/Rendezvous.lean ====
section
/-! DEFINITION. Rendezvous points and the sizing of convergence registers (R175 to R182). -/

namespace Sys2Proof.Machine

/-- An index of an S-format instruction beyond its range, or of something uninitialised (R176). -/
def badIndex (ix : Nat) : FaultInfo := illegalOperand 3 ix

/-- RV_BUSY (R177, R182, R223). -/
def rvBusy (x : Nat) : FaultInfo := freezeFault 0x0F 0 x

/-- An S-format index limit (R176). -/
def indexBelow (n : Nat) (ix : BitVec 6) (_ : Header) : Option FaultInfo :=
  if ix.toNat < n then none else some (badIndex ix.toNat)

/-- A rendezvous point of a team as it now stands. -/
def State.point (s : State) (tid ix : Nat) : Point :=
  ((tget s.teams tid).map fun t => vget t.rv ix { exp := 0, ph := false, cur := 0, nxt := 0 }).getD
    { exp := 0, ph := false, cur := 0, nxt := 0 }

/-- A rendezvous point is set. -/
def State.setPoint (s : State) (tid ix : Nat) (p : Point) : State := s.updTeam tid fun t => { t with rv := vset t.rv ix p }

/-- A convergence register of a team as it now stands. -/
def State.conv (s : State) (tid ix : Nat) : Conv :=
  ((tget s.teams tid).map fun t => vget t.cv ix { cnt := 0, sig := 0, armed := false, cmd := 0, latch := none }).getD
    { cnt := 0, sig := 0, armed := false, cmd := 0, latch := none }

/-- A convergence register is set. -/
def State.setConv (s : State) (tid ix : Nat) (c : Conv) : State := s.updTeam tid fun t => { t with cv := vset t.cv ix c }

/-- RVINIT (R177). (DESIGN CHOICE: log 70) -/
def execRvinit (g : BitVec 3) (ix : BitVec 6) (a : BitVec 7) (s : State) : Host.Outcome State Fault Refusal :=
  { guard := g, srcs := [(0, a)], post := indexBelow 24 ix : Form }.run (fun l s =>
    let c := (l.src 0).toNat
    let p := s.point l.tid ix.toNat
    if c = 0 ∨ l.team.count < c then .fault (illegalOperand 0 a.toNat)
    else if p.cur ≠ 0 ∨ p.nxt ≠ 0 then .fault (rvBusy ix.toNat)
    else .ok (s.setPoint l.tid ix.toNat { p with exp := c, cur := 0, nxt := 0 }) []) s

/-- Bit `ix` of a thread's phase or ahead bits set or cleared. -/
def setBit24 (x : BitVec 24) (ix : Nat) (b : Bool) : BitVec 24 :=
  if b then x ||| BitVec.ofNat 24 (2 ^ ix) else x &&& ~~~(BitVec.ofNat 24 (2 ^ ix))

/-- A phase of a point completes (R178): the phase flips, each thread of the team moves on, waiters wake. -/
def State.completePhase (s : State) (tid ix : Nat) : State :=
  let p := s.point tid ix
  let s := { s with threads := tmap s.threads fun _ th =>
    if th.team = tid then
      if th.ah.getLsbD ix then { th with ah := setBit24 th.ah ix false } else { th with pb := setBit24 th.pb ix false }
    else th }
  let s := s.setPoint tid ix { p with ph := !p.ph, cur := p.nxt, nxt := 0 }
  s.wakeTeam tid fun w => match w with | .rendezvous i => i == ix | _ => false

/-- One arrival (R178). -/
def State.arriveAt (s : State) (sid tid ix : Nat) (pb : Bool) : State :=
  let p := s.point tid ix
  let s :=
    if !pb then
      (s.setPoint tid ix { p with cur := p.cur + 1 }).updThread sid fun th => { th with pb := setBit24 th.pb ix true }
    else
      (s.setPoint tid ix { p with nxt := p.nxt + 1 }).updThread sid fun th => { th with ah := setBit24 th.ah ix true }
  if (s.point tid ix).cur = p.exp then s.completePhase tid ix else s

/-- ARRIVE (R178). -/
def execArrive (g : BitVec 3) (ix : BitVec 6) (s : State) : Host.Outcome State Fault Refusal :=
  { guard := g, post := indexBelow 24 ix, mods := mScope : Form }.run (fun l s =>
    let i := ix.toNat
    if (s.point l.tid i).exp = 0 then .fault (badIndex i)
    else if l.thread.ah.getLsbD i then .fault (freezeFault 0x10 0 i)
    else if s.fenceWaits l.sid 3 then .hold
    else .ok (s.arriveAt l.sid l.tid i (l.thread.pb.getLsbD i)) []) s

/-- WAITRV (R179). -/
def execWaitrv (g : BitVec 3) (ix : BitVec 6) (s : State) : Host.Outcome State Fault Refusal :=
  { guard := g, post := indexBelow 24 ix, mods := mScope, windowBan := true : Form }.run (fun l s =>
    let i := ix.toNat
    if (s.point l.tid i).exp = 0 then .fault (badIndex i)
    else if l.thread.pb.getLsbD i || l.thread.ah.getLsbD i then .block (.rendezvous i)
    else if s.fenceWaits l.sid 2 then .hold else .ok s []) s

/-- CVINIT (R182). -/
def execCvinit (g : BitVec 3) (ix : BitVec 6) (a : BitVec 7) (s : State) : Host.Outcome State Fault Refusal :=
  { guard := g, srcs := [(0, a)], post := indexBelow 16 ix : Form }.run (fun l s =>
    let c := (l.src 0).toNat
    let r := s.conv l.tid ix.toNat
    if c = 0 ∨ l.team.count < c then .fault (illegalOperand 0 a.toNat)
    else if r.sig ≠ 0 ∨ r.armed then .fault (rvBusy (0x20 + ix.toNat))
    else .ok (s.setConv l.tid ix.toNat { r with cnt := c }) []) s

end Sys2Proof.Machine
end

