-- ==== Sys2Proof/Machine/Tensors.lean ====
section
/-! DEFINITION. The instructions that load descriptors and feed a team's Bruin queue: `tdld`, `tdinv`, `msign`, `marm`,
`mzero`, `mld`, `mst`, `mcf`, `mpoly`, `miter` (R183, R215 to R219, R223, R226 to R234). -/

namespace Sys2Proof.Machine

/-- What a command captures of a table entry when it is accepted (R217). -/
def State.captureDesc (s : State) (ctx id : Nat) : Capture :=
  match tget (s.ctx ctx).desc id with
  | none => .invalid
  | some (.loading op) => .loading op
  | some (.valid x) => .valid x

/-- TDLD (R215). -/
def execTdld (g : BitVec 3) (d : BitVec 6) (a b : BitVec 7) (s : State) : Host.Outcome State Fault Refusal :=
  { guard := g, srcs := [(0, a), (1, b)], dst := some d, mods := mCache : Form }.run (fun l s =>
    let va := l.src 0
    let id := (l.src 1).toNat
    if 4096 ≤ id then .fault (illegalOperand 1 b.toNat)
    else if va.toNat % 64 ≠ 0 then .fault (misaligned va)
    else
      match s.access .mem false l.sid va 192 .load false with
      | (_, .fault f) => .fault f
      | (_, .unmapped p _ _) => .fault (pageFault 0x0B p)
      | (s, .ok ps) =>
        let q := s.tokens 1
        let tok := q.2.headD 0
        let r := q.1.addOp (l.op ps (.descriptor id tok) .plain none false)
        let s := r.1.updCtx l.team.ctx fun c => { c with desc := tset c.desc id (.loading r.2) }
        .ok (s.owe l.sid l.pc [tok]) [(d, .pend tok)]) s

/-- The thread's own load of a table entry is in flight (R217: program order). (DEDUCED: log 33) -/
def State.ownLoad (s : State) (sid id : Nat) : Bool :=
  (s.opsOf sid).any fun o => match o.act with | .descriptor i _ => i == id | _ => false

/-- TDINV (R216). (DEDUCED: log 33) -/
def execTdinv (g : BitVec 3) (a : BitVec 7) (s : State) : Host.Outcome State Fault Refusal :=
  { guard := g, srcs := [(0, a)] : Form }.run (fun l s =>
    let id := (l.src 0).toNat
    if 4096 ≤ id then .fault (illegalOperand 0 a.toNat)
    else if s.ownLoad l.sid id then .hold
    else .ok (s.updCtx l.team.ctx fun c => { c with desc := tdel c.desc id }) []) s

/-! ### The Bruin queue (R218, R219) -/

/-- A command that waits in an issue latch: register and latch, the one issued first. -/
def Team.latched (t : Team) : Option (Nat × Word × Nat) :=
  minBy (fun x => x.2.2) ((List.range 16).filterMap fun i =>
    ((vget t.cv i { cnt := 0, sig := 0, armed := false, cmd := 0, latch := none }).latch).map fun q => (i, q.1, q.2))

/-- No place for a command that enters directly: the queue is full, or a latched command comes first (R219). -/
def Team.bruinFull (t : Team) : Bool := 64 ≤ t.bruin.cmds.length || t.latched.isSome

/-- The table entries a command names (R217, R220, R227). -/
def BCmd.names : BCmd → List Nat
  | .mma w => [bits w 58 47, bits w 46 35]
  | .mld a _ => [bits a 11 0]
  | .mst a _ => [bits a 11 0]
  | _ => []

/-- A command is accepted into a team's queue (R217 to R219, R234): its number and the state. -/
def State.acceptCmd (s : State) (tid : Nat) (cmd : BCmd) (sid : Nat) (wnum tok : Option Nat) : State × Nat :=
  match tget s.teams tid with
  | none => (s, 0)
  | some t =>
    let n := t.bruin.accepted + 1
    let e : BEntry :=
      { cmd := cmd, sid := sid, snaps := cmd.names.map fun id => (id, s.captureDesc t.ctx id), cf := t.cf.toList,
        wnum := wnum, tok := tok }
    let since := if t.bruin.cmds.isEmpty then (s.cluster (t.core / 8)).bruinServed else t.bruin.since
    (s.updTeam tid fun t => { t with bruin := { t.bruin with cmds := t.bruin.cmds ++ [e], accepted := n, since := since } }, n)

/-- A convergence register issues its command (R183, R219): it enters the queue, or waits in the register's latch. -/
def State.issueConv (s : State) (tid ix : Nat) (c : Conv) : State :=
  match tget s.teams tid with
  | none => s
  | some t =>
    let c1 : Conv := { c with armed := false, sig := 0 }
    if t.bruinFull then (s.setConv tid ix { c1 with latch := some (c.cmd, s.fresh) }).bump
    else ((s.setConv tid ix c1).acceptCmd tid (.mma c.cmd) 0 none none).1

/-- MSIGN (R183). -/
def execMsign (g : BitVec 3) (ix : BitVec 6) (s : State) : Host.Outcome State Fault Refusal :=
  { guard := g, post := indexBelow 16 ix, mods := mScope : Form }.run (fun l s =>
    let i := ix.toNat
    let r := s.conv l.tid i
    if r.cnt = 0 then .fault (badIndex i)
    else if r.sig = r.cnt then .fault (freezeFault 0x11 0 i)
    else if s.fenceWaits l.sid 3 then .hold
    else
      let r := { r with sig := r.sig + 1 }
      if r.sig = r.cnt ∧ r.armed then .ok (s.issueConv l.tid i r) [] else .ok (s.setConv l.tid i r) []) s

/-- MARM (R223). -/
def execMarm (g : BitVec 3) (ix : BitVec 6) (a : BitVec 7) (s : State) : Host.Outcome State Fault Refusal :=
  { guard := g, srcs := [(0, a)], post := indexBelow 16 ix, windowBan := true : Form }.run (fun l s =>
    let i := ix.toNat
    let r := s.conv l.tid i
    if r.cnt = 0 then .fault (badIndex i)
    else if r.armed then .fault (rvBusy (0x20 + i))
    else if r.latch.isSome then .block (.issueLatch i)
    else
      let r := { r with cmd := l.src 0, armed := true }
      if r.sig = r.cnt then .ok (s.issueConv l.tid i r) [] else .ok (s.setConv l.tid i r) []) s

/-- Direct issue of a command with a release (R219, R228): its number is pushed. -/
def Lane.enterCmd (l : Lane) (s : State) (d : BitVec 6) (cmd : BCmd) (counted : Bool) : LaneOut :=
  if l.team.bruinFull then .block .bruinPlace
  else if s.fenceWaits l.sid 3 then .hold
  else
    let q := if counted then
        let q := s.issueWrite (sidCore l.sid) (sidBank l.sid)
        q.1.acceptCmd l.tid cmd l.sid (some q.2) none
      else s.acceptCmd l.tid cmd l.sid none none
    .ok q.1 [(d, .known (wd q.2))]

/-- MZERO (R226). (DEDUCED: log 34) -/
def execMzero (g : BitVec 3) (d : BitVec 6) (n : BitVec 4) (s : State) : Host.Outcome State Fault Refusal :=
  { guard := g, dst := some d, mods := mScope, windowBan := true : Form }.run
    (fun l s => l.enterCmd s d (.mzero n.toNat) false) s

/-- MZERO_REL (R226). -/
def execMzeroRel (g : BitVec 3) (d : BitVec 6) (n : BitVec 4) (s : State) : Host.Outcome State Fault Refusal :=
  { guard := g, dst := some d, mods := mScope, windowBan := true : Form }.run
    (fun l s => l.enterCmd s d (.mzeroRel n.toNat) false) s

/-- MLD (R227). -/
def execMld (g : BitVec 3) (d : BitVec 6) (a b : BitVec 7) (s : State) : Host.Outcome State Fault Refusal :=
  { guard := g, srcs := [(0, a), (1, b)], dst := some d, mods := mScope, windowBan := true : Form }.run (fun l s =>
    if bits (l.src 0) 63 16 ≠ 0 then .fault (illegalOperand 0 a.toNat)
    else l.enterCmd s d (.mld (l.src 0) (l.src 1)) false) s

/-- MST (R227): counted as a write at its issue. -/
def execMst (g : BitVec 3) (d : BitVec 6) (a b : BitVec 7) (s : State) : Host.Outcome State Fault Refusal :=
  { guard := g, srcs := [(0, a), (1, b)], dst := some d, mods := mScope, windowBan := true : Form }.run (fun l s =>
    if bits (l.src 0) 63 16 ≠ 0 then .fault (illegalOperand 0 a.toNat)
    else l.enterCmd s d (.mst (l.src 0) (l.src 1)) true) s

/-- MCF (R232). -/
def execMcf (g : BitVec 3) (a : BitVec 7) (n : BitVec 4) (s : State) : Host.Outcome State Fault Refusal :=
  { guard := g, srcs := [(0, a)], minVer := 3 : Form }.run (fun l s =>
    .ok (s.updTeam l.tid fun t => { t with cf := vset t.cf n.toNat ((l.src 0).setWidth 32) }) []) s

/-- MCF_2 (R232). -/
def execMcf2 (g : BitVec 3) (a : BitVec 7) (n : BitVec 4) (s : State) : Host.Outcome State Fault Refusal :=
  { guard := g, srcs := [(0, a)], minVer := 3, illegal := n.toNat % 2 == 1 : Form }.run (fun l s =>
    let hi := BitVec.ofNat 32 (bits (l.src 0) 63 32)
    .ok (s.updTeam l.tid fun t =>
      { t with cf := vset (vset t.cf n.toNat ((l.src 0).setWidth 32)) (n.toNat + 1) hi }) []) s

/-- Rows m of the region of a control word (R233). -/
def ctlM (w : Word) : Nat := bits w 30 24 + 1

/-- Columns n of the region. -/
def ctlN (w : Word) : Nat := bits w 22 16 + 1

/-- A control word of `mpoly` breaks its layout (R233). -/
def mpolyBad (w : Word) : Bool :=
  bits w 63 31 != 0 || bitAt w 23 || bitAt w 11 || bits w 15 12 > 13 || bits w 9 8 != 0 || ctlM w != ctlN w

/-- A control word of `miter` breaks its layout (R233). -/
def miterBad (w : Word) : Bool :=
  bits w 63 31 != 0 || bitAt w 23 || bitAt w 11 || bits w 7 4 != 0
    || (match bits w 9 8 with | 2 => bits w 15 12 > 7 | 3 => true | _ => bits w 15 12 != 0)

/-- MPOLY (R233 to R235). -/
def execMpoly (g : BitVec 3) (d : BitVec 6) (a : BitVec 7) (s : State) : Host.Outcome State Fault Refusal :=
  { guard := g, srcs := [(0, a)], dst := some d, minVer := 3, windowBan := true : Form }.run (fun l s =>
    if mpolyBad (l.src 0) then .fault (illegalOperand 0 a.toNat)
    else if l.team.bruinFull then .block .bruinPlace
    else
      let q := s.acceptCmd l.tid (.mpoly (l.src 0)) l.sid none none
      .ok q.1 [(d, .known (wd q.2))]) s

/-- MITER (R233, R234): its status is pending. (DEDUCED: log 34) -/
def execMiter (g : BitVec 3) (d : BitVec 6) (a b : BitVec 7) (s : State) : Host.Outcome State Fault Refusal :=
  { guard := g, srcs := [(0, a), (1, b)], dst := some d, minVer := 3, mods := mTrap, windowBan := true : Form }.run
    (fun l s =>
      if miterBad (l.src 0) then .fault (illegalOperand 0 a.toNat)
      else if l.src 1 = 0 ∨ bits (l.src 1) 63 8 ≠ 0 then .fault (illegalOperand 1 b.toNat)
      else if l.team.bruinFull then .block .bruinPlace
      else
        let q := s.tokens 1
        let tok := q.2.headD 0
        let r := q.1.acceptCmd l.tid (.miter (l.src 0) (l.src 1).toNat l.mods.trap) l.sid none (some tok)
        .ok (r.1.owe l.sid l.pc [tok]) [(d, .pend tok)]) s

end Sys2Proof.Machine
end

