-- ==== Sys2Proof/Machine/Traps.lean ====
section
/-! DEFINITION. The trap queue (R270, R271), the commands of system software (R273) and the vectors of the host (R364). -/

namespace Sys2Proof.Machine

/-- An MSI-X vector fires: an interrupt, unless one of a context's vector stands that the host has not serviced yet (R364).
(DESIGN CHOICE: log 57) -/
def State.fire (s : State) (v : Nat) : State :=
  let k := s.package
  let sent := if v < 64 && k.msix.contains v then k.interrupts else tset k.interrupts v (tgetD k.interrupts v 0 + 1)
  { s with package := { k with msix := insRise k.msix v, interrupts := sent } }

/-- Records in the trap queue, modulo 2^32 (R270). -/
def CtxSt.occupancy (c : CtxSt) : Nat := (c.tqtail - c.tqhead).toNat

/-- The four words of a trap record (R111). -/
def TrapRec.words (r : TrapRec) : List Word :=
  [wd (r.card.toNat * 2 ^ 32 + r.extra.toNat * 2 ^ 18 + r.ctx % 64 * 2 ^ 12 + r.cluster % 32 * 2 ^ 7 + r.core % 8 * 2 ^ 4
      + r.bank % 2 * 8 + boolNat r.exited * 4 + boolNat r.replay * 2 + boolNat r.fatal),
   r.wid, wd (r.code.toNat * 2 ^ 59 + bits r.pc 55 2 * 4), r.addr]

/-- Words as bytes, little-endian (R2). -/
def wordsBytes (ws : List Word) : List Byte := ws.flatMap fun w => leBytes 8 w.toNat

/-- The waiting record that may post now (R271): the first, or at occupancy 255 the first fatal one. (DEDUCED: log 19) -/
def CtxSt.postable (c : CtxSt) : Option TrapRec :=
  if c.tqStuck then none
  else if c.occupancy ≤ 254 then c.waiting.head?
  else if c.occupancy = 255 then c.waiting.find? TrapRec.fatal
  else none

/-- A fatal record finds the queue full: the context is to be frozen (R271). -/
def CtxSt.overflows (c : CtxSt) : Bool := 256 ≤ c.occupancy && c.waiting.any TrapRec.fatal && !c.frozen

/-- TRAP_RECORD_POST (R270, R271). A slot whose write the host does not complete counts as one that cannot be written (R364).
(DEDUCED: log 19) (DESIGN CHOICE: log 65) -/
def execTrapRecordPost (ctx : Nat) (s : State) : Host.Outcome State Fault Refusal :=
  let c := s.ctx ctx
  match c.postable with
  | some r =>
    let slot := c.tqbase + wd (32 * (c.tqtail.toNat % 256))
    if s.agentSilent ctx slot 32 then .next (((s.agentHear ctx slot 32).updCtx ctx fun c => { c with tqStuck := true }).fire 64)
    else
    match s.agentWrite ctx slot false (wordsBytes r.words) with
    | none => .next ((s.updCtx ctx fun c => { c with tqStuck := true }).fire 64)
    | some s =>
      .next ((s.updCtx ctx fun c => { c with tqtail := c.tqtail + 1, waiting := c.waiting.erase r }).fire ctx)
  | none =>
    if c.overflows then .next (s.updCtx ctx fun c => { c with frozen := true, tqovf := true }) else .next s

/-- A TQHEAD write (R270): one that the occupancy forbids is ignored and sets REJ; either way a record whose slot could
not be written is tried again (R271), and the context's vector counts as serviced (R364). (DESIGN CHOICE: log 57) -/
def State.writeTqhead (s : State) (ctx : Nat) (w : Word) : State :=
  let h : BitVec 32 := w.setWidth 32
  let s := { s with package := { s.package with msix := s.package.msix.erase ctx } }
  s.updCtx ctx fun c =>
    if 256 < (c.tqtail - h).toNat then { c with rej := true, tqStuck := false } else { c with tqhead := h, tqStuck := false }

/-- TQHEAD_WRITE (R270, R271). (DEDUCED: log 19) -/
def execTqheadWrite (ctx : Nat) (w : Word) (s : State) : Host.Outcome State Fault Refusal := .next (s.writeTqhead ctx w)

/-! ### Commands (R273) -/

/-- An operation that names nothing sets REJ. -/
def State.reject (s : State) (ctx : Nat) : State := s.updCtx ctx fun c => { c with rej := true }

/-- A record of this engine still waits to be posted (R271). -/
def CtxSt.engineWaits (c : CtxSt) (cls n : Nat) : Bool := c.waiting.any fun r => r.engine == some (cls, n)

/-- Classes of engines in records: chain, binner's ring, rasteriser, Bruin queue, ray queue. -/
def engChain : Nat := 0

/-- A binner's ring. -/
def engBinner : Nat := 1

/-- A cluster's rasteriser. -/
def engRaster : Nat := 2

/-- A team's Bruin queue. -/
def engBruin : Nat := 3

/-- A team's ray queue. -/
def engRay : Nat := 4

/-- Stalled engines of a context retry (R222, R229, R294, R308, R318). -/
def State.retryEngines (s : State) (ctx : Nat) : State :=
  let c := s.ctx ctx
  let s := s.updCtx ctx fun c =>
    { c with chains := tmap c.chains fun i x => if c.engineWaits engChain i then x else { x with stall := false },
             binners := tmap c.binners fun i x => if c.engineWaits engBinner i then x else { x with stall := false } }
  let s := { s with teams := tmap s.teams fun i t =>
    if t.ctx = ctx then
      { t with bruin := { t.bruin with stalled := t.bruin.stalled && c.engineWaits engBruin i },
               rays := { t.rays with stalled := t.rays.stalled && c.engineWaits engRay i } }
    else t }
  { s with clusters := tmap s.clusters fun i k =>
      { k with raster := k.raster.map fun r =>
          if r.ctx = ctx then { r with stalled := r.stalled && c.engineWaits engRaster i } else r } }

/-- Side-log entries of a context may retry (R126), and so may its accesses that an owner had no page for (R381). -/
def State.retryLogged (s : State) (ctx : Nat) : State :=
  { s with ops := tmap s.ops fun _ o => if o.ctx = ctx then { o with retry := o.retry || o.logged, stuck := false } else o }

/-- REPLAY (R273): halted threads, stalled engines, logged accesses and an unwritable trap slot. (DEDUCED: log 20) -/
def State.replayAll (s : State) (ctx : Nat) : State :=
  (((s.replayThreads ctx).retryEngines ctx).retryLogged ctx).updCtx ctx fun c => { c with tqStuck := false }

/-- REPLAY (R273). (DEDUCED: log 20) -/
def execReplay (ctx : Nat) (s : State) : Host.Outcome State Fault Refusal := .next (s.replayAll ctx)

/-- RESUME (R273). (DEDUCED: log 20) -/
def execResume (ctx : Nat) (card : BitVec 32) (wid : Word) (s : State) : Host.Outcome State Fault Refusal :=
  .next (s.resumeThreads ctx card wid)

/-- The open cards of a context with a card id (R273). -/
def State.openCards (s : State) (ctx : Nat) (card : BitVec 32) : List Nat :=
  (s.cards.filter fun p => p.2.ctx == ctx && p.2.id == card && s.cardOpen p.1).map Prod.fst

/-- The teams of a card that go by a WID base. -/
def State.teamsBased (s : State) (c : Nat) (wid : Word) : List Nat :=
  (s.teams.filter fun p => p.2.card == c && !p.2.gone && p.2.origin == wid).map Prod.fst

/-- A card has records of the team with that base. -/
def State.hasRecords (s : State) (c : Nat) (wid : Word) : Bool :=
  match tget s.cards c with
  | none => false
  | some k =>
    k.records != 0 && (List.range 24).any fun cl => (List.range (s.poolSize cl k.ctx)).any fun i =>
      let ws := s.readRecord cl k.ctx i
      recordState ws != 0 && wordAt ws 3 == k.addr && k.hdr.ofTeam wid (wordAt ws 2)

/-- One card's teams with a base are killed, with the records of that team. (DEDUCED: log 20) -/
def State.killBase (s : State) (c : Nat) (wid : Word) : State :=
  let s := (s.teamsBased c wid).foldl (fun s t => s.killTeam t) s
  let hdr := (tget s.cards c).map Card.hdr
  let s := match hdr with | some h => s.discardRecords c (h.ofTeam wid) | none => s
  s.updCard c fun k => { k with out := { k.out with killed := true } }

/-- KILLTEAM by system software (R273, R274). -/
def State.killTeams (s : State) (ctx : Nat) (card : BitVec 32) (wid : Word) : State :=
  let cs := (s.openCards ctx card).filter fun c => !(s.teamsBased c wid).isEmpty || s.hasRecords c wid
  if cs.isEmpty then s.reject ctx else cs.foldl (fun s c => s.killBase c wid) s

/-- KILLTEAM (R273, R274). -/
def execKillteam (ctx : Nat) (card : BitVec 32) (wid : Word) (s : State) : Host.Outcome State Fault Refusal :=
  .next (s.killTeams ctx card wid)

/-- KILLCARD by system software (R273). -/
def State.killCards (s : State) (ctx : Nat) (card : BitVec 32) : State :=
  let cs := s.openCards ctx card
  if cs.isEmpty then s.reject ctx else cs.foldl (fun s c => s.killCard c fun o => { o with killed := true }) s

/-- KILLCARD (R273). -/
def execKillcard (ctx : Nat) (card : BitVec 32) (s : State) : Host.Outcome State Fault Refusal :=
  .next (s.killCards ctx card)

/-- UNFREEZE: TQOVF is cleared, and the masters stopped by R271 resume. -/
def State.unfreezeCtx (s : State) (ctx : Nat) : State := s.updCtx ctx fun c => { c with tqovf := false, frozen := false }

/-- UNFREEZE (R273). -/
def execUnfreeze (ctx : Nat) (s : State) : Host.Outcome State Fault Refusal := .next (s.unfreezeCtx ctx)

/-- A write of CMD (R273): the operation that it names, with CMDARG. -/
def State.command (s : State) (ctx : Nat) (w : Word) : State :=
  let s := s.updCtx ctx fun c => { c with cmd := w }
  let arg := (s.ctx ctx).cmdarg
  let card : BitVec 32 := w.setWidth 32
  match bits w 63 56 with
  | 1 => s.replayAll ctx
  | 2 => s.resumeThreads ctx card arg
  | 3 => s.killTeams ctx card arg
  | 4 => s.killCards ctx card
  | 5 => s.unfreezeCtx ctx
  | _ => s.reject ctx

end Sys2Proof.Machine
end

