-- ==== Sys2Proof/Machine/Bruin.lean ====
section
/-! DEFINITION. The Bruin engine: its matrix products (R69 to R71), the start of commands (R220, R224, R227, R234), their
passes (R221, R226, R227, R235, R236), arbitration (R224, R225), records (R222, R229, R239), and the issue latch's entry
(R219). -/

namespace Sys2Proof.Machine

/-! ### Tiles and products -/

/-- The elements of a tile from position `p` on, `n` of them. -/
def tileList : Nat → Nat → Tile → List Nat
  | 0, _, _ => []
  | n + 1, p, [] => 0 :: tileList n (p + 1) []
  | n + 1, p, (q, b) :: r =>
    if q = p then b.toNat :: tileList n (p + 1) r else 0 :: tileList n (p + 1) ((q, b) :: r)

/-- The tile whose elements from position `p` on are these. -/
def tileOf : Nat → List Nat → Tile
  | _, [] => []
  | p, a :: r => if a = 0 then tileOf (p + 1) r else (p, BitVec.ofNat 32 a) :: tileOf (p + 1) r

/-- A list cut into pieces of `n`, the last one maybe shorter. -/
def chunks {α : Type} (n : Nat) : Nat → List α → List (List α)
  | 0, _ => []
  | fuel + 1, xs => if xs.isEmpty then [] else xs.take n :: chunks n fuel (xs.drop n)

/-- The region of `m` rows and `n` columns of a tile, by rows (R234). -/
def tileRows (t : Tile) (m n : Nat) : List (List Nat) := ((chunks 128 128 (tileList 16384 0 t)).take m).map (·.take n)

/-- A tile with a region written, the rest unchanged. -/
def tileWith (t : Tile) (rows : List (List Nat)) : Tile :=
  tileOf 0 ((tileList 16384 0 t).zipIdx.map fun p =>
    ((rows[p.2 / 128]?).bind fun r => r[p.2 % 128]?).getD p.1)

/-- The columns of a matrix given by rows, as rows. -/
def transpose (rows : List (List Nat)) : List (List Nat) :=
  (List.range (rows.headD []).length).map fun j => rows.map fun r => r.getD j 0

/-- An operand element: its value, and for three passes its two BF16 parts (R71). -/
structure Opnd where
  full : Num
  hi : Num
  lo : Num
deriving DecidableEq, Repr

/-- An element as an operand; its parts are hi, with bits [15:0] cleared, and lo, x − hi rounded to BF16 (R71). -/
def opnd (f3 : Bool) (x : Num) : Opnd :=
  if f3 && !x.special then
    let b := f32.encode 0 x
    let hi := f32.decode (b - b % 65536)
    { full := x, hi := hi, lo := bf16.decode (bf16.encode 0 (Num.add false x hi.neg)) }
  else { full := x, hi := x, lo := x }

/-- The exact products of one pair of elements (R69 to R71). -/
def pairTerms (f3 : Bool) (a b : Opnd) : List Num :=
  if f3 && !a.full.special && !b.full.special then [a.hi.mul b.hi, a.hi.mul b.lo, a.lo.mul b.hi]
  else [a.full.mul b.full]

/-- One step of a sum: the products of a group or block are summed exactly, rounded once, and added by one FP32 addition;
none where the result would be NaN (R69, R70, R229). -/
def accStep (f3 : Bool) (c : Nat) (a b : List Opnd) : Option Nat :=
  let part := f32.encode 0 (Num.sum ((a.zip b).flatMap fun p => pairTerms f3 p.1 p.2))
  let r := f32.encode 0 (Num.add false (f32.decode c) (f32.decode part))
  if f32.isNan part || f32.isNan r then none else some r

/-- Every element of a list, or none. -/
def allSome {α : Type} : List (Option α) → Option (List α)
  | [] => some []
  | none :: _ => none
  | some a :: r => (allSome r).map (a :: ·)

/-- One k-step of all elements of a tile; none on NaN. -/
def kStep (f3 : Bool) (rows cols : List (List Opnd)) (c : List Nat) : Option (List Nat) :=
  allSome (((rows.flatMap fun r => cols.map fun q => (r, q)).zip c).map fun p => accStep f3 p.2 p.1.1 p.1.2)

/-- An element of a resident tile as an operand of Prod (R234): BF16-rounded, or in three passes. -/
def resident (f3 : Bool) (x : Nat) : Opnd :=
  opnd f3 (if f3 then f32.decode x else bf16.decode (bf16.encode 0 (f32.decode x)))

/-- The sum of one element of Prod, in groups of 8 from k = 0 (R70, R71, R234). -/
def dotAcc (f3 : Bool) : List (List Opnd × List Opnd) → Nat → Option Nat
  | [], c => some c
  | (a, b) :: r, c => (accStep f3 c a b).bind (dotAcc f3 r)

/-- Prod(P, Q) of matrices by rows (R234); none where a NaN arises. -/
def prod (f3 : Bool) (p q : List (List Nat)) : Option (List (List Nat)) :=
  let cut := fun xs : List Nat => chunks 8 16 (xs.map (resident f3))
  let cols := (transpose q).map cut
  allSome (p.map fun r => allSome (cols.map fun c => dotAcc f3 ((cut r).zip c) 0))

/-- v · I of order m (R235). -/
def eye (m v : Nat) : List (List Nat) :=
  (List.range m).map fun i => (List.range m).map fun j => if i = j then v else 0

/-- Round(x + c, FP32, rn) of patterns. -/
def addRound (x c : Nat) : Nat := f32.encode 0 (Num.add false (f32.decode x) (f32.decode c))

/-- cf is added to the diagonal (R235); none where a sum is NaN. -/
def diagAdd (s : List (List Nat)) (c : Nat) : Option (List (List Nat)) :=
  allSome (s.zipIdx.map fun r => allSome (r.1.zipIdx.map fun e =>
    if e.2 = r.2 then (if f32.isNan (addRound e.1 c) then none else some (addRound e.1 c)) else some e.1))

/-- The norm of exact values (R237). -/
def norm (xs : List Num) : Nat :=
  match Num.sum (xs.map fun x => x.mul x) with
  | .fin _ m e => if m = 0 then 0 else f32.sqrt 0 m e
  | v => f32.encode 0 v

/-- The values of a matrix. -/
def values (rows : List (List Nat)) : List Num := rows.flatten.map f32.decode

/-- a > b × c on exact values; false with a NaN (R237). -/
def exceeds (a b c : Nat) : Bool :=
  let p := (f32.decode b).mul (f32.decode c)
  !f32.isNan a && decide (p ≠ .nan) && Num.cmp (f32.decode a) p == 1

/-- a ≤ b × c on exact values; false with a NaN (R237). -/
def within (a b c : Nat) : Bool :=
  let p := (f32.decode b).mul (f32.decode c)
  !f32.isNan a && decide (p ≠ .nan) && Num.cmp (f32.decode a) p != 1

/-! ### The start of a command -/

/-- The snapshots a command captured; none where an entry was invalid. -/
def snapsOf (cs : List (Nat × Capture)) : Option (List Snap) :=
  allSome (cs.map fun c => match c.2 with | .valid s => some s | _ => none)

/-- The head still waits for a descriptor load (R217). -/
def BEntry.loading (e : BEntry) : Bool := e.snaps.any fun c => match c.2 with | .loading _ => true | _ => false

/-- A plane that an operand may not have: in the LOCAL window, or with an owner (R220, 0xC4). -/
def State.badPlane (s : State) (ctx : Nat) (d : List Word) : Bool :=
  let bad := fun a : Word => a.toNat / 2 ^ 56 != 0 ||
    (match (s.ctx ctx).window a with | some (.loc, _) => true | _ => false)
  bad (wordAt d 1) || (dDxb d && bad (wordAt d 2))

/-- The checks of a command's snapshots: 0xC2, then R214 on each (R220, R227). -/
def snapsBad (word : Word) (cs : List (Nat × Capture)) : Except (BitVec 5 × Word × Nat) (List (List Word)) :=
  match snapsOf cs with
  | none => .error (0x13, word, 0xC2)
  | some ss =>
    match ss.find? fun x => (descCheck x.words).isSome with
    | some x => match descCheck x.words with
      | some (c, e) => .error (c, x.addr, e)
      | none => .ok (ss.map Snap.words)
    | none => .ok (ss.map Snap.words)

/-- The first of these conditions that holds names its EXTRA (R220). -/
def firstC (word : Word) (cs : List (Bool × Nat)) : Option (BitVec 5 × Word × Nat) :=
  (firstBad cs).map fun e => (0x13, word, e)

/-- A matrix operand of rank 2 in plain view. -/
def plain2 (d : List Word) : Bool := dView d == 0 && dRank d == 2

/-- A team has bound a tile (R224). -/
def Team.bound (t : Team) (n : Nat) : Bool := (tget t.tiles n).isSome

/-- What the checks at a command's start find (R220, R227, R234): code, ADDR and EXTRA. -/
def State.startBad (s : State) (t : Team) (e : BEntry) : Option (BitVec 5 × Word × Nat) :=
  match e.cmd with
  | .mma w =>
    if bitAt w 0 then some (0x13, w, 0xC1)
    else
      match snapsBad w e.snaps with
      | .error x => some x
      | .ok ds =>
        let a := ds.getD 0 []
        let b := ds.getD 1 []
        firstC w [(!(plain2 a || dView a == 1) || !plain2 b || dFmt a != dFmt b || decide (4 < dFmt a), 0xC3),
          (s.badPlane t.ctx a || s.badPlane t.ctx b, 0xC4), (!bitAt w 63 && !t.bound (bits w 62 59), 0xC5)]
  | .mzero _ | .mzeroRel _ => none
  | .mld a b | .mst a b =>
    match snapsBad a e.snaps with
    | .error x => some x
    | .ok ds =>
      let d := ds.getD 0 []
      let store := match e.cmd with | .mst _ _ => true | _ => false
      firstC a [(s.badPlane t.ctx d, 0xC4), (!plain2 d || decide (5 < dFmt d), 0xC3),
        (dDxb d && b.toNat % 32 != 0, 0xC6), (store && !t.bound (bits a 15 12), 0xC5)]
  | .mpoly w => firstC w [(bits w 15 12 != 0 && !t.bound (bits w 3 0), 0xC5)]
  | .miter w _ _ => firstC w [(!t.bound (bits w 3 0), 0xC5)]

/-- The tile a command binds when it starts (R224, R235). -/
def BCmd.binds : BCmd → Option Nat
  | .mma w => if bitAt w 63 then some (bits w 62 59) else none
  | .mzero n => some n
  | .mzeroRel _ => none
  | .mld a _ => some (bits a 15 12)
  | .mst _ _ => none
  | .mpoly w => some (bits w 7 4)
  | .miter _ _ _ => none

/-- The scratch tiles a command takes (R234). -/
def BCmd.scratch : BCmd → Nat
  | .mpoly _ => 2
  | .miter _ _ _ => 3
  | _ => 0

/-- The tiles a head command still needs in order to start. -/
def State.tileNeed (s : State) (t : Team) (e : BEntry) : Nat :=
  if t.bruin.prog.isSome then (if t.bruin.parked then e.cmd.scratch else 0)
  else if (s.startBad t e).isSome then 0
  else e.cmd.scratch + match e.cmd.binds with | some n => (if t.bound n then 0 else 1) | none => 0

/-- Tiles in use on a cluster's engine: bound ones, and the scratch tiles of running commands (R224). -/
def State.tilesUsed (s : State) (cl : Nat) : Nat :=
  (s.teams.filter fun p => p.2.core / 8 == cl && !p.2.gone && (s.ctx p.2.ctx).saved.isNone).foldl (fun n p =>
    let run := if p.2.bruin.prog.isSome && !p.2.bruin.parked then (p.2.bruin.cmds.head?.map fun e => e.cmd.scratch).getD 0 else 0
    n + p.2.tiles.length + run) 0

/-! ### Arbitration (R224, R225) -/

/-- A team's queue has a head command that is neither stopped, stalled nor waiting for a load. -/
def State.bruinHead (s : State) (t : Team) : Option BEntry :=
  if t.gone || t.bruin.stopped || t.bruin.stalled || (s.ctx t.ctx).frozen || (s.ctx t.ctx).away then none
  else t.bruin.cmds.head?.filter fun e => !e.loading

/-- The queues of a cluster with such a head: team, facts, and the tiles the head needs. -/
def State.bruinHeads (s : State) (cl : Nat) : List (Nat × Team × Nat) :=
  s.teams.filterMap fun p =>
    if p.2.core / 8 = cl then (s.bruinHead p.2).map fun e => (p.1, p.2, s.tileNeed p.2 e) else none

/-- The priority of a team's card. -/
def State.teamPrio (s : State) (t : Team) : Nat := ((tget s.cards t.card).map Card.prio).getD 0

/-- The order of R224: the higher priority, the earlier wait, the lower WID base. -/
def State.claimRank (s : State) (t : Team) : Nat :=
  ((15 - s.teamPrio t) * 2 ^ 64 + t.bruin.tileWait.getD s.clk) * 2 ^ 64 + t.base.toNat

/-- A head can have the tiles it needs: those of the heads that come before it by R224, and its own, are free. Of heads
that R224 leaves equal, two teams of one WID base, the older team comes first. (DEDUCED: log 34) -/
def State.tileFits (s : State) (cl : Nat) (h : Nat × Team × Nat) : Bool :=
  let key := fun g : Nat × Team × Nat => (s.claimRank g.2.1, g.1)
  let before := (s.bruinHeads cl).filter fun g =>
    decide ((key g).1 < (key h).1) || ((key g).1 == (key h).1 && decide ((key g).2 ≤ (key h).2))
  h.2.2 == 0 || decide ((before.map fun g => g.2.2).sum ≤ 64 - s.tilesUsed cl)

/-- The passes that a ready queue has waited through. -/
def State.bruinDue (s : State) (cl : Nat) (h : Nat × Team × Nat) : Nat :=
  (s.cluster cl).bruinServed - max h.2.1.bruin.since h.2.1.bruin.lastServed

/-- The queue that the next pass serves (R224, R225): by priority and service, unless the queues that have waited longest
need every pass that is left to them to be served within 256. -/
def State.bruinPick (s : State) (cl : Nat) : Option Nat :=
  let ready := (s.bruinHeads cl).filter fun h => s.tileFits cl h
  let due := s.bruinDue cl
  if ready.any fun h => decide (256 ≤ due h + (ready.filter fun g => decide (due h ≤ due g)).length) then
    (maxBy due ready).map Prod.fst
  else
    (minBy (fun h : Nat × Team × Nat => (15 - s.teamPrio h.2.1) * 2 ^ 64 + h.2.1.bruin.lastServed) ready).map Prod.fst

/-- A head command begins to wait for tiles in this clock. -/
def State.bruinWaits (s : State) (cl : Nat) : Bool :=
  (s.bruinHeads cl).any fun h => !s.tileFits cl h && h.2.1.bruin.tileWait.isNone

/-- Waits for tiles that begin now, and the queues that are not ready, are marked. -/
def State.bruinMark (s : State) (cl : Nat) : State :=
  let hs := s.bruinHeads cl
  let n := (s.cluster cl).bruinServed
  { s with teams := tmap s.teams fun i t =>
      if t.core / 8 = cl then
        match hs.find? fun h => h.1 == i with
        | none => { t with bruin := { t.bruin with since := n } }
        | some h =>
          if s.tileFits cl h then t
          else { t with bruin := { t.bruin with since := n, tileWait := some (t.bruin.tileWait.getD s.clk) } }
      else t }

/-! ### Ends of a pass -/

/-- How a pass ends: the command goes on, is complete (with a status for `miter`), stalls on an unmapped page, or stops
with a record and maybe a status. -/
inductive PassEnd where
  | more
  | done (status : Option Word)
  | stall (write : Bool) (a : Word)
  | stop (code : BitVec 5) (addr : Word) (extra : Nat) (status : Option Word)
deriving DecidableEq, Repr

/-- The record of a team's queue (R222). -/
def State.bruinRecord (s : State) (tid : Nat) (t : Team) (code : BitVec 5) (fatal : Bool) (addr : Word) (extra : Nat) :
    State :=
  s.postRecord
    { card := s.cardId t, extra := BitVec.ofNat 14 extra, ctx := t.ctx, cluster := t.core / 8, core := t.core % 8,
      bank := t.bank, exited := false, replay := !fatal, fatal := fatal, wid := t.base, code := code, pc := 0,
      addr := addr, owner := none, engine := if fatal then none else some (engBruin, tid), clk := s.clk }

/-- A status arrives (R238). -/
def State.fillStatus (s : State) (e : BEntry) (w : Option Word) : State :=
  match e.tok, w with
  | some k, some w => s.fillTok e.sid k w
  | _, _ => s

/-- The state of a team's queue changed. -/
def State.updBruin (s : State) (tid : Nat) (f : BruinQ → BruinQ) : State :=
  s.updTeam tid fun t => { t with bruin := f t.bruin }

/-- The end of a pass takes effect (R218, R221, R222, R227, R238, R239). -/
def State.endPass (s : State) (tid : Nat) (t : Team) (e : BEntry) : PassEnd → State
  | .more => s
  | .done w =>
    let s := s.updBruin tid fun q => { q with cmds := q.cmds.drop 1, done := q.done + 1, prog := none, tileWait := none }
    let s := match e.wnum with | some n => s.completeWrite t.core t.bank n | none => s
    s.fillStatus e w
  | .stall write a =>
    (s.updBruin tid fun q => { q with stalled := true }).bruinRecord tid t (if write then 0x0C else 0x0B) false a 0
  | .stop code a x w =>
    let s := (s.updBruin tid fun q => { q with stopped := true, prog := none }).bruinRecord tid t code true a x
    (s.updCard t.card fun c => { c with out := { c.out with faulted := true } }).fillStatus e w

/-- An access that does not go on ends the pass (R221, R227). -/
def EngStop.passEnd : EngStop → PassEnd
  | .remote a _ _ _ => .stop 0x0D a 0 none
  | .unmapped a w => .stall w a
  | .fault c a => .stop c a 0 none

/-- How far the head command has come is kept. -/
def State.setProg (s : State) (tid : Nat) (p : BProg) : State := s.updBruin tid fun q => { q with prog := some p }

/-- A team's tile is written. -/
def State.setTile (s : State) (tid n : Nat) (x : Tile) : State :=
  s.updTeam tid fun t => { t with tiles := tset t.tiles n x }

/-- The engine's view of memory for a team (R221). -/
def Team.bruinEng (t : Team) : Eng :=
  { ctx := t.ctx, cl := t.core / 8, team := some t, tk := .matrix, remote := false, eng := true }

/-! ### MMA (R220, R221, R229) -/

/-- The elements of one row of A, or one column of B, over a k-step; +0 outside (R220). -/
def State.fetchLine (s : State) (e : Eng) (d : List Word) (f3 : Bool) (m : Nat) : List Nat →
    State × Except EngStop (List Opnd)
  | [] => (s, .ok [])
  | k :: r =>
    let one : State × Except EngStop Num := match matIndex d m k with
      | none => (s, .ok (Num.fin false 0 0))
      | some ix => s.elemNum e d ix
    match one with
    | (s, .error x) => (s, .error x)
    | (s, .ok v) =>
      match s.fetchLine e d f3 m r with
      | (s, .error x) => (s, .error x)
      | (s, .ok vs) => (s, .ok (opnd f3 v :: vs))

/-- All rows of A, or columns of B, from `m` on. -/
def State.fetchLines (s : State) (e : Eng) (d : List Word) (f3 : Bool) (ks : List Nat) : Nat → Nat →
    State × Except EngStop (List (List Opnd))
  | 0, _ => (s, .ok [])
  | n + 1, m =>
    match s.fetchLine e d f3 m ks with
    | (s, .error x) => (s, .error x)
    | (s, .ok l) =>
      match s.fetchLines e d f3 ks n (m + 1) with
      | (s, .error x) => (s, .error x)
      | (s, .ok ls) => (s, .ok (l :: ls))

/-- Width of a k-step in k (R221). -/
def kWidth (d : List Word) : Nat := if dDxb d then 32 else 8

/-- First row of A: M0 + 128 × ROWT in an unfold view (R220). -/
def mmaRow0 (w : Word) (a : List Word) : Nat :=
  128 * bits w 10 6 + if dView a = 1 then bits (wordAt a 22) 55 32 else 0

/-- First column of B. -/
def mmaCol0 (w : Word) : Nat := 128 * bits w 5 1

/-- k-steps of a command: KC = 0 means 4,096 (R220). -/
def mmaSteps (w : Word) (a : List Word) : Nat := 32 * (if bits w 22 11 = 0 then 4096 else bits w 22 11) / kWidth a

/-- One k-step: the operands are fetched, then every element of the tile changes, or none (R229). The rows of A are
fetched by index, then the columns of B, and the first fetch that fails decides. (DESIGN CHOICE: log 70) -/
def State.mmaStep (s : State) (tid : Nat) (t : Team) (w : Word) (a b : List Word) (i : Nat) : State × Option PassEnd :=
  let f3 := dFmt a == 0
  let n := bits w 62 59
  let ks := (List.range (kWidth a)).map fun j => 32 * bits w 34 23 + i * kWidth a + j
  match s.fetchLines t.bruinEng a f3 ks 128 (mmaRow0 w a) with
  | (s, .error x) => (s, some x.passEnd)
  | (s, .ok rows) =>
    match s.fetchLines t.bruinEng b f3 ks 128 (mmaCol0 w) with
    | (s, .error x) => (s, some x.passEnd)
    | (s, .ok cols) =>
      let old := if bitAt w 63 && i == 0 then [] else ((tget s.teams tid).bind fun t => tget t.tiles n).getD []
      match kStep f3 rows cols (tileList 16384 0 old) with
      | none =>
        (s, some (.stop 0x14
          (wd (i % 2 ^ 16 * 2 ^ 48 + mmaRow0 w a % 2 ^ 24 * 2 ^ 24 + mmaCol0 w % 2 ^ 24)) n none))
      | some c => (s.setTile tid n (tileOf 0 c), none)

/-- A pass of MMA: up to 2,048 consecutive k (R221). -/
def State.mmaPass (s : State) (tid : Nat) (t : Team) (w : Word) (a b : List Word) (p : BProg) : Nat → State × PassEnd
  | 0 => (s.setProg tid p, if mmaSteps w a ≤ p.step then .done none else .more)
  | n + 1 =>
    if mmaSteps w a ≤ p.step then (s, .done none)
    else
      match s.mmaStep tid t w a b p.step with
      | (s, some e) => (s.setProg tid p, e)
      | (s, none) => s.mmaPass tid t w a b { p with step := p.step + 1 } n

/-! ### mld and mst (R227) -/

/-- The elements of a tile loaded from a tensor, in row order; +0.0 outside. -/
def State.loadTile (s : State) (e : Eng) (d : List Word) (row0 col0 : Nat) : List Nat →
    State × Except EngStop (List Nat)
  | [] => (s, .ok [])
  | p :: r =>
    let ix := [col0 + p % 128, row0 + p / 128]
    let one : State × Except EngStop Num := if inside d ix then s.elemNum e d ix else (s, .ok (Num.fin false 0 0))
    match one with
    | (s, .error x) => (s, .error x)
    | (s, .ok v) =>
      match s.loadTile e d row0 col0 r with
      | (s, .error x) => (s, .error x)
      | (s, .ok vs) => (s, .ok (f32.encode 0 v :: vs))

/-- The writes of one unit: FP32 and FP64 exactly, FP16 and BF16 rounded, DXB quantised by its split (R67, R68, R227). -/
def unitWrites (d : List Word) (ix : List Nat) (vs : List Num) : List (Word × List Byte) :=
  if dDxb d then
    let q := dxbQuantise (dEight d) (dxbSplit d) vs
    blockWrites d ix (q.1 + 256 * q.2.1) q.2.2
  else [(elemAddr d ix, leBytes (fmtBytes (dFmt d)) ((fmtOf (dFmt d)).encode 0 (vs.headD .nan)))]

/-- The units of an `mst` from position `i` on, until a write stops it; `todo` holds the writes that are left of unit `i`
once one of them has stopped. -/
def State.storeTile (s : State) (tid : Nat) (e : Eng) (d : List Word) (row0 col0 : Nat) (x : List Nat) :
    List (Word × List Byte) → Nat → List (Nat × Nat) → State × PassEnd
  | _, _, [] => (s, .done none)
  | todo, i, u :: r =>
    let vs := ((x.drop (128 * u.1 + u.2)).take (if dDxb d then 32 else 1)).map f32.decode
    let ws := if todo.isEmpty then unitWrites d [col0 + u.2, row0 + u.1] vs else todo
    match s.engWrites e ws with
    | (s, .error (y, rest)) => (s.setProg tid { step := i, mats := [], nums := [], k := 0, todo := rest }, y.passEnd)
    | (s, .ok _) => s.storeTile tid e d row0 col0 x [] (i + 1) r

/-! ### mpoly and miter (R235 to R239) -/

/-- A register of coefficients that a command captured. -/
def BEntry.coef (e : BEntry) (i : Nat) : Nat := (e.cf.getD i 0).toNat

/-- A pass of `mpoly`: one product with its diagonal sum, or the region when DEG is 0 (R235). -/
def State.polyPass (s : State) (tid : Nat) (t : Team) (e : BEntry) (w : Word) (p : BProg) : State × PassEnd :=
  let m := ctlM w
  let d := bits w 15 12
  let y := bits w 7 4
  let finish := fun (s : State) (r : List (List Nat)) =>
    (s.setTile tid y (tileWith (tgetD t.tiles y []) r), PassEnd.done none)
  if d = 0 then finish s (eye m (e.coef 0))
  else
    let x := tileRows (tgetD t.tiles (bits w 3 0) []) m m
    let cur := match p.mats with | a :: _ => tileRows a m m | [] => eye m (e.coef d)
    match (prod (bitAt w 10) cur x).bind fun r => diagAdd r (e.coef (d - 1 - p.step)) with
    | none => (s, .stop 0x14 (wd (p.step * 2 ^ 48)) y none)
    | some r =>
      if p.step + 1 = d then finish s r
      else (s.setProg tid { p with step := p.step + 1, mats := [tileWith [] r] }, .more)

/-- The status value of `miter` (R238). -/
def iterStatus (trapped pass : Bool) (iters res : Nat) : Word :=
  wd ((if trapped then 2 ^ 41 else 0) + (if pass then 2 ^ 40 else 0) + iters % 256 * 2 ^ 32 + res % 2 ^ 32)

/-- The trap of `miter` for reason `r` (R239). -/
def iterTrap (x r k low iters res : Nat) : PassEnd :=
  .stop 0x15 (wd (k % 256 * 2 ^ 32 + low)) (x + 16 * r) (some (iterStatus true false iters res))

/-- The combination of NS3 and NS5: exact products and sums, rounded once (R236). -/
def combine (e : BEntry) (ms : List (List (List Nat))) (m n : Nat) : List (List Nat) :=
  (List.range m).map fun i => (List.range n).map fun j =>
    f32.encode 0 (Num.sum (ms.zipIdx.map fun a =>
      (f32.decode (e.coef a.2)).mul (f32.decode ((a.1.getD i []).getD j 0))))

/-- The end of an iteration: the checks of R236 on X′ (none: a NaN arose inside). -/
def State.iterEnd (s : State) (tid : Nat) (t : Team) (e : BEntry) (w : Word) (cap : Nat) (trap : Bool) (p : BProg)
    (x : List (List Nat)) (x' : Option (List (List Nat))) : State × PassEnd :=
  let xn := bits w 3 0
  let n0 := (p.nums.getD 0 0).toNat
  let nk := (p.nums.getD 1 0).toNat
  let res := (p.nums.getD 2 0).toNat
  let k := p.k + 1
  match x'.filter fun r => !(values r).any Num.special with
  | none => (s, iterTrap xn 0 k 0 p.k res)
  | some r =>
    let nn := norm (values r)
    if exceeds nn (e.coef 14) n0 then (s, iterTrap xn 1 k nn p.k res)
    else
      let res' := norm (((values r).zip (values x)).map fun q => Num.add false q.1 q.2.neg)
      let s := s.setTile tid xn (tileWith (tgetD t.tiles xn []) r)
      if within res' (e.coef 15) nk then (s, .done (some (iterStatus false true k res')))
      else if k = cap then
        (s, if trap then iterTrap xn 2 k res' k res' else .done (some (iterStatus false false k res')))
      else
        (s.setProg tid { step := 0, mats := [],
                         nums := [BitVec.ofNat 32 n0, BitVec.ofNat 32 nn, BitVec.ofNat 32 res'], k := k, todo := [] }, .more)

/-- A pass of `miter`: one product of an iteration; the last one ends it (R236). -/
def State.iterPass (s : State) (tid : Nat) (t : Team) (e : BEntry) (w : Word) (cap : Nat) (trap : Bool) (p : BProg) :
    State × PassEnd :=
  let m := ctlM w
  let n := ctlN w
  let f3 := bitAt w 10
  let kind := bits w 9 8
  let deg := bits w 15 12
  let x := tileRows (tgetD t.tiles (bits w 3 0) []) m n
  let n0 := BitVec.ofNat 32 (norm (values x))
  let p := if p.nums.isEmpty then { p with nums := [n0, n0, 0] } else p
  let g := tileRows (p.mats.getD 0 []) m m
  let next := fun ms : List (List (List Nat)) =>
    (s.setProg tid { p with step := p.step + 1, mats := ms.map (tileWith []) }, PassEnd.more)
  let finish := s.iterEnd tid t e w cap trap p x
  if p.step = 0 then
    match prod f3 x (transpose x) with
    | none => finish none
    | some g => next (if kind = 2 then [g, eye m (e.coef deg)] else [g])
  else if kind = 2 then
    let c := tileRows (p.mats.getD 1 []) m m
    if p.step ≤ deg then
      match (prod f3 c g).bind fun r => diagAdd r (e.coef (deg - p.step)) with
      | none => finish none
      | some r => next [g, r]
    else finish (prod f3 c x)
  else if kind = 0 then finish ((prod f3 g x).map fun q => combine e [x, q] m n)
  else if p.step = 1 then
    match prod f3 g x with
    | none => finish none
    | some q => next [g, q]
  else
    let q1 := tileRows (p.mats.getD 1 []) m n
    finish ((prod f3 g q1).map fun q => combine e [x, q1, q] m n)

/-! ### A pass -/

/-- Snapshot words a command holds. -/
def BEntry.desc (e : BEntry) (i : Nat) : List Word :=
  match e.snaps[i]? with
  | some (_, .valid x) => x.words
  | _ => []

/-- A pass of a started command. -/
def State.passOf (s : State) (tid : Nat) (t : Team) (e : BEntry) (p : BProg) : State × PassEnd :=
  match e.cmd with
  | .mma w => s.mmaPass tid t w (e.desc 0) (e.desc 1) p (2048 / kWidth (e.desc 0))
  | .mzero n => (s.setTile tid n [], .done none)
  | .mzeroRel n => (s.updTeam tid fun t => { t with tiles := tdel t.tiles n }, .done none)
  | .mld a b =>
    match s.loadTile t.bruinEng (e.desc 0) (bits b 63 32) (bits b 31 0) (List.range 16384) with
    | (s, .error x) => (s, x.passEnd)
    | (s, .ok vs) => (s.setTile tid (bits a 15 12) (tileOf 0 vs), .done none)
  | .mst a b =>
    let us := storeUnits (e.desc 0) (bits b 63 32) (bits b 31 0)
    let x := tileList 16384 0 (tgetD t.tiles (bits a 15 12) [])
    s.storeTile tid t.bruinEng (e.desc 0) (bits b 63 32) (bits b 31 0) x p.todo p.step (us.drop p.step)
  | .mpoly w => s.polyPass tid t e w p
  | .miter w cap trap => s.iterPass tid t e w cap trap p

/-- The head command starts: its tile is bound, holding +0.0 (R224). (DEDUCED: log 34) -/
def State.startCmd (s : State) (tid : Nat) (t : Team) (e : BEntry) : State :=
  let s := match e.cmd.binds with
    | some n => if t.bound n then s else s.setTile tid n []
    | none => s
  (s.updBruin tid fun q => { q with tileWait := none }).setProg tid { step := 0, mats := [], nums := [], k := 0, todo := [] }

/-- One pass for a team: the checks at a command's start, then the pass and its end. -/
def State.teamPass (s : State) (tid : Nat) : State :=
  match tget s.teams tid with
  | none => s
  | some t =>
    match t.bruin.cmds with
    | [] => s
    | e :: _ =>
      let bad := if t.bruin.prog.isSome then none else s.startBad t e
      match bad with
      | some (c, a, x) => s.endPass tid t e (.stop c a x none)
      | none =>
        let s := if t.bruin.prog.isSome then s else s.startCmd tid t e
        match tget s.teams tid with
        | none => s
        | some t =>
          let r := s.passOf tid t e (t.bruin.prog.getD { step := 0, mats := [], nums := [], k := 0, todo := [] })
          r.1.endPass tid t e r.2

/-- A pass counts for its context's capture while the team's bank is flipped in (R361). -/
def State.countPass (s : State) (tid : Nat) : State :=
  match tget s.teams tid with
  | none => s
  | some t =>
    if (s.ctx t.ctx).capturing && (s.core t.core).bankOn t.bank then
      s.updCtx t.ctx fun c => { c with capPasses := c.capPasses + 1 }
    else s

/-- BRUIN_PASS (R225). (DESIGN CHOICE: log 8) -/
def execBruinPass (cluster : Nat) (s : State) : Host.Outcome State Fault Refusal :=
  let pick := s.bruinPick cluster
  let s := s.bruinMark cluster
  match pick with
  | none => .next s
  | some tid =>
    let n := (s.cluster cluster).bruinServed + 1
    let s := (s.updCluster cluster fun c => { c with bruinServed := n }).countPass tid
    .next ((s.updBruin tid fun q => { q with lastServed := n, since := n, parked := false }).teamPass tid)

/-- The engine of a cluster has a pass to start, or a wait to mark. -/
def State.bruinMoves (s : State) (cl : Nat) : Bool := (s.bruinPick cl).isSome || s.bruinWaits cl

/-! ### The issue latch (R219) -/

/-- A latched command of a team may enter its queue: a place is free, and the team has a thread left (R230). -/
def Team.latchReady (t : Team) : Option (Nat × Word × Nat) :=
  if t.finished || t.gone || 64 ≤ t.bruin.cmds.length then none else t.latched

/-- ISSUE_LATCH_ENTER (R219): the command latched first enters the queue. (DEDUCED: log 34) -/
def execIssueLatchEnter (team : Nat) (s : State) : Host.Outcome State Fault Refusal :=
  match ((tget s.teams team).filter fun t => !(s.ctx t.ctx).away).bind Team.latchReady with
  | none => .next s
  | some (ix, w, _) =>
    let s := s.setConv team ix { s.conv team ix with latch := none }
    .next (s.acceptCmd team (.mma w) 0 none none).1

end Sys2Proof.Machine
end

