-- ==== Sys2Proof/Machine/Fabric.lean ====
section
/-! DEFINITION. The fabric: atomics (R129), requests to other devices (R379), the ingress translator (R263, R380), ports
(R383) and budget messages (R371, R382). -/

namespace Sys2Proof.Machine

/-! ### Atomics (R129) -/

/-- The new value of an atomic on `n` bits with operands `y` and `z`; none where nothing is written. -/
def atomNew (opc : BitVec 7) (typ : BitVec 2) (n old y z : Nat) : Option Nat :=
  let signed := typ.toNat % 2 == 0
  let less := if signed then decide (sgn n y < sgn n old) else decide (y < old)
  match opc.toNat with
  | 0x55 => some ((old + y) % 2 ^ n)
  | 0x56 => some (if less then y else old)
  | 0x57 => some (if less || y == old then old else y)
  | 0x58 => some (old &&& y)
  | 0x59 => some (old ||| y)
  | 0x5A => some (old ^^^ y)
  | 0x5B => some y
  | 0x5C => if old = y then some z else none
  | _ =>
    let f := if n = 32 then f32 else f64
    some (f.encode 0 (Num.add false (f.decode old) (f.decode y)))

/-- Bytes of an atomic's location. -/
def atomBytes (typ : BitVec 2) : Nat := if typ.toNat < 2 then 4 else 8

/-- The old value as it is placed in a register (R13). -/
def atomOld (typ : BitVec 2) (old : Nat) : Word := if typ.toNat = 0 then wi (sgn 32 old) else wd old

/-- An atomic is performed at a place: the old value and the state. (DESIGN CHOICE: log 70) -/
def State.atomicAt (s : State) (p : Nat) (opc : BitVec 7) (typ : BitVec 2) (y z : Nat) : State × Nat :=
  let n := atomBytes typ
  let old := leNat (s.readLoc p n)
  match atomNew opc typ (8 * n) old (y % 2 ^ (8 * n)) (z % 2 ^ (8 * n)) with
  | some x => (s.replaceMem p (leBytes n x), old)
  | none => (s, old)

/-- A copy engine's contribution to an FP32 element (R73, R291): the exact value is added with one rounding. -/
def addContribution (old : Nat) (v : Num) : Nat := f32.encode 0 (Num.add false (f32.decode old) v)

/-! ### Sending (R379, R383) -/

/-- The port a request to a pod member leaves by, and whether it is ALT; none while both are down. -/
def State.portFor (s : State) (d : Nat) : Option (Nat × Bool) :=
  let r := (tgetD s.fabric.routes d 0).toNat
  let pri := r / 2 % 32
  let alt := r / 64 % 32
  if s.fabric.up.contains pri then some (pri, false) else if s.fabric.up.contains alt then some (alt, true) else none

/-- The scope code of an engine's operations, `.dev` (R244). -/
def devScope : BitVec 3 := 3

/-- The group of a context's requests (R378). -/
def State.groupOf (s : State) (ctx : Nat) : BitVec 8 := (s.ctx ctx).podgid

/-- A request is sent, or waits while both its ports are down; its number is the next. (DESIGN CHOICE: log 60) -/
def State.sendRemote (s : State) (ctx : Nat) (master : Master) (va : Word) (size : Nat) (kind : RemoteKind) (ord : BitVec 2) (scope : BitVec 3) (data cmp : List Byte) : State :=
  let f := s.fabric
  let dst := va.toNat / 2 ^ 56
  let req : RemoteReq :=
    { src := f.pod.toNat, num := f.nextNum, group := s.groupOf ctx, addr := va, size := size, kind := kind, ord := ord, scope := scope,
      data := data, cmp := cmp }
  let self := dst == f.pod.toNat
  let port := s.portFor dst
  let out : RemoteOut :=
    { num := f.nextNum, master := master, dst := dst, req := req, sent := s.ns, alt := port.any Prod.snd,
      waiting := !self && port.isNone }
  { s with fabric := { f with out := f.out ++ [out], nextNum := f.nextNum + 1 } }

/-! ### The ingress translator (R263, R380) -/

/-- What a request needs of its pages. -/
def remoteNeed : RemoteKind → Need
  | .load => { read := true, write := false, exec := false, eng := false }
  | .store => { read := false, write := true, exec := false, eng := false }
  | .red _ _ | .atomic _ _ => { read := true, write := true, exec := false, eng := false }
  | .engRead => { read := true, write := false, exec := false, eng := true }
  | .engWrite => { read := false, write := true, exec := false, eng := true }
  | .engAdd => { read := true, write := true, exec := false, eng := true }

/-- The request is refused on a UO page: an atomic, an engine's addition (R291), or one with ord acquire, release or sc
(stream accesses are not). -/
def remoteStrict (r : RemoteReq) : Bool :=
  r.ord == 1 || r.ord == 2 || (match r.kind with | .red _ _ | .atomic _ _ | .engAdd => true | _ => false)

/-- The places of a request's parts under the tables of a context; a read of a dead segment is refused (R120, R152). -/
def State.ingressPlaces (s : State) (ctx : Nat) (r : RemoteReq) :
    List (Nat × Nat) → State × Except RemoteAns (List (Nat × Nat))
  | [] => (s, .ok [])
  | (o, k) :: rest =>
    match s.translateIngress ctx (r.addr.toNat % 2 ^ 56 + o) (remoteNeed r.kind) with
    | (s, .ok p kind _ _) =>
      if (remoteStrict r && decide (kind = .uo)) || ((remoteNeed r.kind).read && s.deadRange p k) then (s, .error .nakProt)
      else match s.ingressPlaces ctx r rest with
        | (s, .ok ps) => (s, .ok ((p, k) :: ps))
        | (s, .error e) => (s, .error e)
    | (s, .unmapped _) => match s.ingressPlaces ctx r rest with
        | (s, .error .nakProt) => (s, .error .nakProt)
        | (s, _) => (s, .error .nakUnmapped)
    | (s, _) => (s, .error .nakProt)

/-- Bytes stored part by part. -/
def State.storeAll (s : State) : List (Nat × Nat) → List Byte → State
  | [], _ => s
  | (p, n) :: r, bs => (s.store p (bs.take n)).storeAll r (bs.drop n)

/-- A request is performed at its places: the answer. An engine's addition carries its exact value as FP64 data. There is
one memory, so that its scope changes nothing (log 6). -/
def State.performRequest (s : State) (r : RemoteReq) (ps : List (Nat × Nat)) : State × RemoteAns :=
  let s := if (remoteNeed r.kind).read then ps.foldl (fun s p => s.noteRead p.1 p.2) s else s
  let p := (ps.headD (0, 0)).1
  match r.kind with
  | .load | .engRead => (s, .data (ps.flatMap fun p => s.readWoken p.1 p.2))
  | .store | .engWrite => (s.storeAll ps r.data, .data [])
  | .engAdd =>
    let old := leNat (s.readLoc p 4)
    (s.replaceMem p (leBytes 4 (addContribution old (f64.decode (leNat r.data)))), .data [])
  | .red opc typ | .atomic opc typ =>
    let y := if opc = 0x5C then r.cmp else r.data
    let z := if opc = 0x5C then r.data else r.cmp
    let q := s.atomicAt p opc typ (leNat y) (leNat z)
    (q.1, .data (match r.kind with | .red _ _ => [] | _ => leBytes (atomBytes typ) q.2))

/-- A request is served with the tables that its group names, or refused. (DEDUCED: log 38) -/
def State.serveRequest (s : State) (r : RemoteReq) : State × RemoteAns :=
  let e := tgetD s.fabric.ingress r.group.toNat 0
  if !e.getLsbD 7 then (s, .nakProt)
  else
    match s.ingressPlaces (e.toNat % 64) r (pageParts r.addr.toNat (r.size / 4096 + 2) 0 r.size) with
    | (s, .error a) => (s, a)
    | (s, .ok ps) => s.performRequest r ps

/-- INGRESS_REQUEST (R380, R383): a repeated request is answered from the record of the first. (DESIGN CHOICE: log 60) -/
def execIngressRequest (r : RemoteReq) (s : State) : Host.Outcome State Fault Refusal :=
  match s.fabric.served.find? fun x => x.1 == r.src && x.2.1 == r.num with
  | some x => .next { s with fabric := { s.fabric with answers := s.fabric.answers ++ [x] } }
  | none =>
    let q := s.serveRequest r
    let x := (r.src, r.num, q.2)
    let s := q.1
    .next { s with fabric := { s.fabric with served := s.fabric.served ++ [x], answers := s.fabric.answers ++ [x] } }

/-! ### Ports (R383) -/

/-- PORT_LOSS_OF_LOCK (R383): what was sent through the port by PRI is sent again on ALT. -/
def execPortLossOfLock (port : Nat) (s : State) : Host.Outcome State Fault Refusal :=
  if 18 ≤ port then .next s
  else
    let f := s.fabric
    let via := fun o : RemoteOut =>
      let r := (tgetD f.routes o.dst 0).toNat
      !o.waiting && (if o.alt then r / 64 % 32 else r / 2 % 32) == port
    .next { s with fabric := { f with up := f.up.erase port, retrain := insRise f.retrain port,
                                      out := f.out.map fun o => if via o then { o with alt := true } else o } }

/-- PORT_RETRAINED (R378, R383): UP reads 1, PEER names the device at the far end, and requests that waited for a port are
sent. (DESIGN CHOICE: log 60) -/
def execPortRetrained (link : PortPeer) (s : State) : Host.Outcome State Fault Refusal :=
  if 18 ≤ link.port then .next s
  else
    let f := s.fabric
    let s := { s with fabric :=
      { f with up := insRise f.up link.port, retrain := f.retrain.erase link.port, peer := tset f.peer link.port link.peer } }
    .next { s with fabric := { s.fabric with out := s.fabric.out.map fun o =>
      if o.waiting && (s.portFor o.dst).isSome then
        { o with waiting := false, sent := s.ns, alt := (s.portFor o.dst).any Prod.snd }
      else o } }

/-! ### Budgets (R371, R382) -/

/-- Members of the pod. -/
def State.members (s : State) : List Nat :=
  (s.fabric.routes.filter fun p => p.2.getLsbD 11 && p.1 != s.fabric.pod.toNat).map Prod.fst

/-- The device's effective limit in watts (R371). (DESIGN CHOICE: log 54) -/
def State.powerLimit (s : State) : Nat :=
  let k := s.package
  let lim := k.modlimit.toNat
  if k.racklimit = 0 then lim
  else
    let sum := k.peers.foldl (fun a p => a + (if s.ns ≤ p.2.2.2 + 1000000 then p.2.2.1 else p.2.1).toNat) k.demand.toNat
    if sum = 0 then min lim (Config.idleShare s.freeCtr) else min lim (k.racklimit.toNat * 100 * k.demand.toNat / sum)

/-- The effective limit is formed anew; with no demand anywhere its share is a free value. -/
def State.setLimit (s : State) : State :=
  let s := { s with package := { s.package with limit := s.powerLimit } }
  s.useFree

/-- BUDGET messages are due: 100 µs have passed since the last, and there is a pod limit (R371). -/
def State.budgetDue (s : State) : Bool := s.package.racklimit != 0 && decide (s.package.lastBudget + 100000 ≤ s.ns)

/-- A BUDGET message leaves by PRI, or by ALT while PRI is down; with both down it is lost (R382). (DESIGN CHOICE: log 60) -/
def State.putBudget (s : State) (src dst : Nat) (time : Word) (w : Watts) : State :=
  match s.portFor dst with
  | none => s
  | some (p, _) => { s with fabric := { s.fabric with control := s.fabric.control ++ [.budget p src dst time w.draw w.demand] } }

/-- BUDGET_SEND (R371, R382): every 100 µs draw and demand go to every member, with the device time. -/
def execBudgetSend (draw demand : BitVec 16) (s : State) : Host.Outcome State Fault Refusal :=
  if !s.budgetDue then .next s
  else
    let s := { s with package := { s.package with draw := draw, demand := demand, lastBudget := s.ns } }
    .next (s.members.foldl (fun s d => s.putBudget s.fabric.pod.toNat d (wd s.ns) ⟨draw, demand⟩) s).setLimit

/-- BUDGET_MESSAGE (R371, R382): a message to this device counts in its limit; one to another member is forwarded. -/
def execBudgetMessage (src dst : Nat) (time : Word) (watts : Watts) (s : State) : Host.Outcome State Fault Refusal :=
  if dst = s.fabric.pod.toNat then
    .next { s with package := { s.package with peers := tset s.package.peers src (watts.draw, watts.demand, s.ns) } }.setLimit
  else if (tgetD s.fabric.routes dst 0).getLsbD 11 then .next (s.putBudget src dst time watts)
  else .next s

end Sys2Proof.Machine
end

