-- ==== Sys2Proof/Machine/Render.lean ====
section
/-! DEFINITION. The instructions of shading threads: texture samples (R314, R315), ray queries (R317, R318) and pixel
writes (R303, R311, R312). -/

namespace Sys2Proof.Machine

/-! ### Texture views (R314) -/

/-- TFMT: 0 RGBA8, 1 RGBA16F, 2 R32F. -/
def txFmt (d : List Word) : Nat := bits (wordAt d 21) 11 10

/-- Bytes of a texel. -/
def txBytes (d : List Word) : Nat := if txFmt d = 1 then 8 else 4

/-- LEVELS. -/
def txLevels (d : List Word) : Nat := bits (wordAt d 21) 19 16

/-- FILT: 0 nearest, 1 bilinear, 2 trilinear. -/
def txFilt (d : List Word) : Nat := bits (wordAt d 21) 9 8

/-- Width of a level. -/
def txW (d : List Word) (j : Nat) : Nat := max 1 (dSize d 0 / 2 ^ j)

/-- Height of a level. -/
def txH (d : List Word) (j : Nat) : Nat := max 1 (dSize d 1 / 2 ^ j)

/-- The checks of R314, in order. -/
def texRanges (d : List Word) : List (Bool × Nat × Nat) :=
  let f := dFmt d
  let fmtBad := match txFmt d with
    | 1 => f != 9
    | 3 => f != 8 && f != 9
    | _ => f != 8
  let n : Int := txBytes d
  [(dRank d != 2, 0, 4), (fmtBad, 0, 0), (dStride d 0 != n, 9, 0), (dStride d 1 != dSize d 0 * n, 3, 0),
   (txLevels d == 0 || decide (14 < txLevels d), 21, 16),
   (decide (1 + Nat.log2 (max (dSize d 0) (dSize d 1)) < txLevels d), 3, 0),
   (txFmt d == 3, 21, 10), (txFilt d == 3, 21, 8), (bits (wordAt d 21) 7 6 == 3, 21, 6), (bits (wordAt d 21) 5 4 == 3, 21, 4)]

/-- What is wrong with a snapshot as a texture (R315): code and EXTRA. -/
def texCheck (d : List Word) : Option (BitVec 5 × Nat) :=
  match descCheck d with
  | some e => some e
  | none => (firstBad (texRanges d)).map fun p => (0x13, extraAt p.1 p.2)

/-! ### The sample (R315) -/

/-- A coordinate times a size, in units of 2^-160; every `.f32` value is exact in them. -/
def texCoord (x : Num) (w : Nat) : Option Int :=
  match x with
  | .fin neg m e => some (scaled neg (m * w) e (-160))
  | _ => none

/-- An index mapped by an address mode: 0 wrap, 1 clamp, 2 mirror. -/
def texIndex (mode w : Nat) (i : Int) : Nat :=
  match mode with
  | 0 => (i % w).toNat
  | 1 => (min (max i 0) (w - 1)).toNat
  | _ =>
    let j := (i % (2 * w : Nat)).toNat
    if j < w then j else 2 * w - 1 - j

/-- The indices a coordinate samples and their weights in 256ths. (DEDUCED: log 42) -/
def texTaps (linear : Bool) (mode w : Nat) (x : Int) : List (Nat × Nat) :=
  if linear then
    let y := x - 2 ^ 159
    let i := y.fdiv (2 ^ 160)
    let f := roundTo 0 false (y - i * 2 ^ 160).toNat (-160) (-8) false
    let i := if f = 256 then i + 1 else i
    let f := f % 256
    [(texIndex mode w i, 256 - f), (texIndex mode w (i + 1), f)]
  else [(texIndex mode w (x.fdiv (2 ^ 160)), 256)]

/-- The level of detail, clamped, in units of 2^-160. (DEDUCED: log 42) -/
def texLod (d : List Word) (lod : BitVec 32) : Int :=
  let top : Int := (txLevels d - 1 : Nat) * 2 ^ 160
  match f32.decode lod.toNat with
  | .nan => 0
  | .inf neg => if neg then 0 else top
  | .fin neg m e =>
    let x : Int := if 200 < e then (if neg then 0 else top) else scaled neg m e (-160)
    min (max x 0) top

/-- The levels sampled and their weights in 256ths. -/
def texLevel (d : List Word) (lod : BitVec 32) : List (Nat × Nat) :=
  let l := texLod d lod
  if txFilt d = 2 then
    let j := l.fdiv (2 ^ 160)
    let f := roundTo 0 false (l - j * 2 ^ 160).toNat (-160) (-8) false
    [(j.toNat, 256 - f), (j.toNat + 1, f)]
  else [(((l + 2 ^ 159).fdiv (2 ^ 160)).toNat, 256)]

/-- Bytes before a level. -/
def texBase (d : List Word) : Nat → Nat
  | 0 => 0
  | j + 1 => texBase d j + txW d j * txH d j * txBytes d

/-- The texels of a sample: address and weight in units of 2^-24; none for a coordinate that is not finite. -/
def texels (d : List Word) (uv : Word) (lod : BitVec 32) : List (Word × Nat) :=
  let one : Nat → List (Word × Nat) := fun j =>
    match texCoord (f32.decode (bits uv 31 0)) (txW d j), texCoord (f32.decode (bits uv 63 32)) (txH d j) with
    | some u, some v =>
      let lin := txFilt d != 0
      let us := texTaps lin (bits (wordAt d 21) 7 6) (txW d j) u
      let vs := texTaps lin (bits (wordAt d 21) 5 4) (txH d j) v
      vs.flatMap fun y : Nat × Nat => us.map fun x : Nat × Nat =>
        (wordAt d 1 + wd (texBase d j + (y.1 * txW d j + x.1) * txBytes d), y.2 * x.2)
    | _, _ => []
  ((texLevel d lod).flatMap fun l => if l.2 = 0 then [] else (one l.1).map fun t => (t.1, t.2 * l.2)).filter fun t => t.2 != 0

/-- Channel `c` of a texel's bits, as a value; an RGBA8 channel in units of 1/255. -/
def texChannel (d : List Word) (c x : Nat) : Num :=
  match txFmt d with
  | 0 => .fin false (x / 256 ^ c % 256) 0
  | 1 => f16.decode (x / 65536 ^ c % 65536)
  | _ => if c = 0 then f32.decode x else if c = 3 then .fin false 1 0 else .fin false 0 0

/-- A channel's weighted sum, rounded once to FP16. -/
def texSum (d : List Word) (c : Nat) (ts : List (Nat × Nat)) : Nat :=
  let v := Num.sum (ts.map fun t => (Num.fin false t.2 (-24)).mul (texChannel d c t.1))
  match txFmt d, v with
  | 0, .fin neg m e => f16.round 0 neg (m * 2 ^ 64 / 255) (e - 64) (m * 2 ^ 64 % 255 != 0)
  | _, v => f16.encode 0 v

/-- The colour of a sample from its texels' bits and weights. -/
def texColour (d : List Word) (ts : List (Nat × Nat)) : Word :=
  if ts.isEmpty then 0
  else wd (texSum d 0 ts + texSum d 1 ts * 2 ^ 16 + texSum d 2 ts * 2 ^ 32 + texSum d 3 ts * 2 ^ 48)

/-- The places of the texels of a sample, each a load of the thread through the copy TLB. -/
def State.texPieces (s : State) (sid n : Nat) : List (Word × Nat) → List Piece → State × Access
  | [], ps => (s, .ok ps)
  | (a, _) :: r, ps =>
    match s.access .copy true sid a n .load false with
    | (s, .ok q) => s.texPieces sid n r (ps ++ q)
    | (s, x) => (s, x)

/-- A texture sample of a lane. (DEDUCED: log 33) (DEDUCED: log 42) -/
def Lane.sample (l : Lane) (s : State) (d : BitVec 6) (id : Nat) (lod : BitVec 32) : LaneOut :=
  match tget (s.ctx l.team.ctx).desc id with
  | none => .fault (freezeFault 0x13 0 0xE1)
  | some (.loading _) => .hold
  | some (.valid x) =>
    if dView x.words ≠ 2 then .fault (freezeFault 0x13 x.addr 0xE1)
    else
      match texCheck x.words with
      | some (c, e) => .fault (freezeFault c x.addr e)
      | none =>
        match s.texPieces l.sid (txBytes x.words) (texels x.words (l.src 0) lod) [] with
        | (_, .fault f) => .fault f
        | (_, .unmapped a _ _) => .fault (pageFault 0x0B a)
        | (s, .ok ps) =>
          let q := s.tokens 1
          let tok := q.2.headD 0
          let r := q.1.addOp (l.op ps (.texture x (l.src 0) lod tok) .plain none false)
          .ok (r.1.owe l.sid l.pc [tok]) [(d, .pend tok)]

/-- TEX (R315). -/
def execTex (g : BitVec 3) (d : BitVec 6) (a b : BitVec 7) (s : State) : Host.Outcome State Fault Refusal :=
  { guard := g, srcs := [(0, a), (1, b)], dst := some d : Form }.run (fun l s =>
    if bits (l.src 1) 63 12 ≠ 0 then .fault (illegalOperand 1 b.toNat)
    else l.sample s d (bits (l.src 1) 11 0) 0) s

/-- TEXF (R315). -/
def execTexf (g : BitVec 3) (d : BitVec 6) (a b : BitVec 7) (s : State) : Host.Outcome State Fault Refusal :=
  { guard := g, srcs := [(0, a), (1, b)], dst := some d : Form }.run (fun l s =>
    if bits (l.src 1) 15 12 ≠ 0 ∨ bits (l.src 1) 63 48 ≠ 0 then .fault (illegalOperand 1 b.toNat)
    else l.sample s d (bits (l.src 1) 11 0) (BitVec.ofNat 32 (bits (l.src 1) 47 16))) s

/-! ### Ray queries (R317, R318) -/

/-- An access in flight that a load of the thread at a place comes after: one of its own (R245), a side-log entry of its
bank (R126), a store that has made the segment live (R152). -/
def State.ownOverlap (s : State) (sid : Nat) (ps : List Piece) : Bool :=
  let before := s.opsOf sid ++ (s.ops.map Prod.snd).filter fun o =>
    o.woke || (o.logged && o.core == sidCore sid && o.bank == sidBank sid)
  ps.any fun p => decide (p.path ≠ .remote) && before.any fun o =>
    (s.spots o).any fun q => rangesMeet q.1 q.2 p.place p.len

/-- The read of a thread's ray record that waits at issue for its owner's answer. -/
def State.rayRead (s : State) (l : Lane) : Option (Nat × MemOp) :=
  s.ops.find? fun p => p.2.sid == l.sid && p.2.team == l.tid && p.2.wid == l.thread.wid && p.2.pc == l.pc
    && (match p.2.act with | .load [] => true | _ => false)

/-- The words of a ray record, captured at issue (R318). In another device's memory the thread sends a request and is held
until the answer has come (R379, R381). (DEDUCED: log 38) -/
def Lane.rayWords (l : Lane) (s : State) (ps : List Piece) : Except LaneOut (State × List Word) :=
  if ps.any fun p => decide (p.path = .remote) then
    match s.rayRead l with
    | none => .error (.send fun s => (s.addOp (l.op ps (.load []) .plain none false)).1)
    | some (id, o) =>
      match o.got with
      | [] => .error .hold
      | r :: _ => .ok ({ s with ops := tdel s.ops id }, leWords 5 r.bytes)
  else .ok (ps.foldl (fun s p => s.noteRead p.place p.len) s, leWords 5 (ps.flatMap fun p => s.readLoc p.place p.len))

/-- A ray enters its team's queue: it counts as a write of the bank (R132), and its result is pending under `tok`. -/
def Lane.enterRay (l : Lane) (s : State) (d : BitVec 6) (tok : Nat) (ws : List Word) (ra root : Word) (place : Option Nat) :
    State :=
  let q := s.issueWrite (sidCore l.sid) (sidBank l.sid)
  q.1.updTeam l.tid fun t =>
    let r : Ray := { num := t.rays.accepted + 1, sid := l.sid, tok := some tok, dst := d, words := ws, addr := ra, place := place,
                     root := root, wnum := q.2, found := none }
    { t with rays := { t.rays with rays := t.rays.rays ++ [r], accepted := t.rays.accepted + 1 } }

/-- RQ (R318). The result is pending in its queue entry, latch and register (R14, R15); with a hardware queue as the
destination the engine makes that queue's push when the ray finishes (R161). -/
def execRq (g : BitVec 3) (d : BitVec 6) (a b : BitVec 7) (s : State) : Host.Outcome State Fault Refusal :=
  { guard := g, srcs := [(0, a), (1, b)], dst := some d, enginePush := true, windowBan := true : Form }.run (fun l s =>
    let ra := l.src 0
    let root := l.src 1
    if ra.toNat % 64 ≠ 0 then .fault (misaligned ra)
    else if root.toNat % 128 ≠ 0 then .fault (misaligned root)
    else
      match s.access .mem false l.sid ra 40 .load false with
      | (_, .fault f) => .fault f
      | (_, .unmapped p _ _) => .fault (pageFault 0x0B p)
      | (s, .ok ps) =>
        if s.ownOverlap l.sid ps then .hold
        else
          match l.rayWords s ps with
          | .error x => x
          | .ok (s, ws) =>
            if bits (wordAt ws 4) 63 2 ≠ 0 then .fault (illegalOperand 0 a.toNat)
            else if 256 ≤ l.team.rays.rays.length then .block .rayPlace
            else if s.fenceWaits l.sid 3 then .hold
            else
              let q := s.tokens 1
              let tok := q.2.headD 0
              let place := (ps.head?.filter fun p => decide (p.path ≠ .remote) && p.page.isNone).map Piece.place
              let s := l.enterRay q.1 d tok ws ra root place
              .ok (s.owe l.sid l.pc [tok]) [(if (dstW d).isSome then 0 else d, .pend tok)]) s

/-! ### Pixels of the Carousel (R303, R311, R312) -/

/-- The block of a rate level: width and height in pixels (R310). -/
def rateBlock : Nat → Nat × Nat
  | 0 => (1, 1)
  | 1 => (2, 1)
  | 2 => (2, 2)
  | 3 => (4, 2)
  | _ => (4, 4)

/-- The sample's block: its first pixel and its size. -/
def quadBlock (r : Word) : Nat × Nat × Nat × Nat :=
  let b := rateBlock (bits r 62 60)
  let i := bits r 33 32
  (bits r 55 44 * 2 * b.1 + i % 2 * b.1, bits r 43 38 * 2 * b.2 + i / 2 * b.2, b.1, b.2)

/-- The pixels of a block inside the raster and the strip. -/
def blockPixels (d : List Word) (strip : Nat) (q : Nat × Nat × Nat × Nat) : List (Nat × Nat) :=
  ((List.range q.2.2.2).flatMap fun j => (List.range q.2.2.1).map fun i => (q.1 + i, q.2.1 + j)).filter fun p =>
    p.1 < odRW d && p.2 < odRH d && strip * odRH d + p.2 < odOH d / odC d

/-- A channel blended (R312): 0 replace, 2 add, else over. -/
def blendChannel (mode : Nat) (sv dv av : Nat) : Nat :=
  let x := f16.decode sv
  match mode with
  | 0 => if f16.isNan sv then f16.nanBits else sv
  | 2 => f16.encode 0 (x.add false (f16.decode dv))
  | _ =>
    let al := f16.decode av
    f16.encode 0 ((x.mul al).add false ((f16.decode dv).mul ((Num.fin false 1 0).add false al.neg)))

/-- A pixel blended: colour over stored value. -/
def blendPixel (mode : Nat) (colour stored : Word) : Word :=
  wd ((List.range 4).foldl (fun a c =>
    a + blendChannel mode (bits colour (16 * c + 15) (16 * c)) (bits stored (16 * c + 15) (16 * c)) (bits colour 63 48)
      * 2 ^ (16 * c)) 0)

/-- Location of the depth word of render pixel (x, y) of a team's strip (R310). -/
def depthLoc (t : Team) (d : List Word) (x y : Nat) : Nat :=
  sliceLoc (t.core / 8) (t.allocOff + bits (wordAt d 2) 22 0 + 8 * (y * odRW d + x))

/-- PIXW (R312): one write on the cluster path. -/
def execPixw (g : BitVec 3) (a b : BitVec 7) (s : State) : Host.Outcome State Fault Refusal :=
  { guard := g, srcs := [(0, a), (1, b)] : Form }.run (fun l s =>
    let r := l.src 0
    match l.team.act with
    | none => .fault (protection 0)
    | some act =>
      let d := (s.stream act.stream).odesc
      let q := quadBlock r
      if act.output then .fault (protection 0)
      else if bitAt r 63 || bits r 36 34 ≠ 0 || 4 < bits r 62 60 then .fault (illegalOperand 0 a.toNat)
      else if odRW d ≤ q.1 ∨ odRH d ≤ q.2.1 then .fault (illegalOperand 0 a.toNat)
      else
        let run := odRunning d act.frame act.strip
        let ps := if bitAt r (56 + bits r 33 32) then
            (blockPixels d act.strip q).map fun p : Nat × Nat =>
              ({ place := odPixel d run p.1 (odHL d + p.2), gva := 0, mapped := true, len := 8, va := 0, kind := .rc, path := .cluster, page := none } : Piece)
          else []
        .ok (l.issue s ps (.pixel r (l.src 1)) .plain false) []) s

/-- A pixel write is performed as one step at its block (R312). -/
def State.performPixel (s : State) (o : MemOp) (r colour : Word) : State :=
  match tget s.teams o.team with
  | none => s
  | some t =>
    match t.act with
    | none => s
    | some act =>
      let d := (s.stream act.stream).odesc
      let q := quadBlock r
      let at' := depthLoc t d q.1 q.2.1 + 4
      let s := if bitAt r 37 then s.noteRead at' 4 else s
      if bitAt r 37 && s.readNat at' 4 ≠ bits r 31 0 then s
      else o.pieces.foldl (fun s p =>
        let old := wd (s.readNat p.place 8)
        (s.noteRead p.place 8).store p.place (leBytes 8 (blendPixel (bits (wordAt d 0) 25 24) colour old).toNat)) s

end Sys2Proof.Machine
end

