-- ==== Sys2Proof/Machine/Perform.lean ====
section
/-! DEFINITION. Accesses in flight are performed (R15, R122, R123, R126, R128, R129, R132, R215), and the requests of
the remote ones are sent (R379). -/

namespace Sys2Proof.Machine

/-! ### Records of accesses in flight -/

/-- The thread that issued an access still runs. -/
def State.issuerLives (s : State) (o : MemOp) : Bool :=
  let mine := fun th : Thread => th.team == o.team && th.wid == o.wid && decide (th.cond ≠ .ended)
  (tget s.threads o.sid).any mine || (s.ctx o.ctx).saved.any fun v => (tget v.threads o.sid).any mine

/-- The record of an access that fails after its issue (R111, R128): its PC, its WID, EXITED if its thread has ended. -/
def State.opRecord (s : State) (o : MemOp) (code : BitVec 5) (addr : Word) (fatal replay : Bool) : State :=
  let card := ((tget s.teams o.team).map fun t => s.cardId t).getD 0
  s.postRecord
    { card := card, extra := 0, ctx := o.ctx, cluster := o.core / 8, core := o.core % 8, bank := o.bank,
      exited := !s.issuerLives o, replay := replay, fatal := fatal, wid := o.wid, code := code,
      pc := o.pc &&& 0x00FFFFFFFFFFFFFC#64, addr := addr, owner := some o.sid, engine := none, clk := s.clk }

/-- The tokens an access owes. -/
def MemOp.tokens (o : MemOp) : List Nat :=
  match o.act with
  | .load parts => parts.map fun p => p.2.2
  | .atomic _ _ _ _ t => t.toList
  | .descriptor _ t | .texture _ _ _ t => [t]
  | _ => []

/-- An access is given up: its write counts as complete (R128), and nothing more is owed by it. -/
def State.abandonOp (s : State) (id : Nat) (o : MemOp) : State :=
  ((s.dropOp id).updThread o.sid fun th =>
    if th.team = o.team then { th with owed := th.owed.filter fun p => !o.tokens.contains p.1 } else th).reap o.sid

/-- An access fails for good (R128, R381): a FATAL record, the access given up, its team frozen, its card FAULTED. -/
def State.failOp (s : State) (id : Nat) (o : MemOp) (code : BitVec 5) (addr : Word) : State :=
  let s := (s.opRecord o code addr true false).abandonOp id o
  match tget s.teams o.team with
  | none => s
  | some t =>
    if t.finished then
      (s.updTeam o.team fun t => { t with failed := true }).updCard t.card fun c => { c with out := { c.out with faulted := true } }
    else s.freezeTeam o.team

/-- The thread of an access halts at a page fault: at the access if it still waits there, else where it is (R381).
(DEDUCED: log 38) -/
def State.haltIssuer (s : State) (o : MemOp) : State :=
  match tget s.threads o.sid with
  | none => s
  | some th =>
    if !s.issuerLives o || th.cond = .frozen then s
    else
      let pc := match th.cond with
        | .inGroup g => ((tget s.groups g).map fun gr => if gr.run.isEmpty then gr.pc else gr.runPc).getD th.pc
        | _ => th.pc
      (s.detach o.sid).updThread o.sid fun th =>
        { th with pc := pc, cond := .halted .page, b0 := none, b1 := none }

/-! ### Performing -/

/-- Bytes of an access. -/
def MemOp.size (o : MemOp) : Nat := o.pieces.foldl (fun n p => n + p.len) 0

/-- First address of an access. -/
def MemOp.base (o : MemOp) : Word := (o.pieces.head?.map Piece.va).getD 0

/-- A part reaches the register aperture, and its access as a whole is not naturally aligned: it reads as zero and writes
nothing (R268). -/
def MemOp.crooked (o : MemOp) (p : Piece) : Bool := 2 ^ 44 ≤ p.place && o.base.toNat % o.size != 0

/-- Bytes that a part of an access reads. -/
def State.pieceBytes (s : State) (o : MemOp) (p : Piece) : List Byte :=
  if p.path = .remote then ((o.got.find? fun r => r.addr == p.va).map RemoteData.bytes).getD []
  else if o.crooked p then List.replicate p.len 0
  else s.readLoc p.place p.len

/-- Side effects of the reads of an access (R268). -/
def State.readEffects (s : State) (o : MemOp) : State :=
  o.pieces.foldl (fun s p => if 2 ^ 44 ≤ p.place && !o.crooked p then s.regReadEffect (p.place - 2 ^ 44) p.len else s) s

/-- The values of a load reach their tokens, in order (R122). -/
def State.fillParts (s : State) (sid : Nat) : List (Nat × Bool × Nat) → List Byte → State
  | [], _ => s
  | (n, signed, tok) :: r, bs =>
    let x := leNat (bs.take n)
    let w := if signed then wi (sgn (8 * n) x) else wd x
    (s.fillTok sid tok w).fillParts sid r (bs.drop n)

/-- Bytes stored over parts of an access. -/
def State.storePieces (s : State) (o : MemOp) : List Piece → List Byte → State
  | [], _ => s
  | p :: r, bs =>
    (if p.path = .remote || o.crooked p then s else s.store p.place (bs.take p.len)).storePieces o r (bs.drop p.len)

/-- Bits and weights of the texels of a sample, from its parts in order. -/
def State.texelBits (s : State) (o : MemOp) (x : Snap) (uv : Word) (lod : BitVec 32) : List (Nat × Nat) :=
  let ts := texels x.words uv lod
  let n := txBytes x.words
  let all := o.pieces.flatMap fun p => s.pieceBytes o p
  ts.zipIdx.map fun p => (leNat ((all.drop (n * p.2)).take n), p.1.2)

/-- The write of an access is complete (R132). -/
def State.opComplete (s : State) (o : MemOp) : State :=
  match o.wnum with
  | some n => s.completeWrite o.core o.bank n
  | none => s

/-- The parts of an access that it reads in this device's memory. -/
def MemOp.readPieces (o : MemOp) : List Piece :=
  match o.act with
  | .store _ | .tail _ _ => []
  | _ => o.pieces.filter fun p => decide (p.path ≠ .remote)

/-- The reading thread's team is killed where an access reads a word of LP6 with an uncorrectable error (R367). -/
def State.killReader (s : State) (o : MemOp) : State :=
  match o.readPieces.findSome? fun p => s.badWord p.place p.len with
  | some p => s.uncorrectable o.team (wd p)
  | none => s

/-- An access takes effect: its values arrive, its bytes are stored, its write is complete. -/
def State.effect (s : State) (o : MemOp) : State :=
  match o.act with
  | .load parts =>
    let bs := o.pieces.flatMap fun p => s.pieceBytes o p
    (s.readEffects o).fillParts o.sid parts bs
  | .store bs => (s.storePieces o o.pieces bs).opComplete o
  | .atomic opc typ b c tok =>
    let p := o.pieces.head?
    if p.any fun p => p.path == .remote then
      let old := leNat ((p.map fun p => s.pieceBytes o p).getD [])
      let s := s.opComplete o
      match tok with | some t => s.fillTok o.sid t (atomOld typ old) | none => s
    else
      let q := s.atomicAt ((p.map Piece.place).getD 0) opc typ b.toNat c.toNat
      let s := q.1.opComplete o
      match tok with | some t => s.fillTok o.sid t (atomOld typ q.2) | none => s
  | .descriptor _ _ => s
  | .texture x uv lod tok => s.fillTok o.sid tok (texColour x.words (s.texelBits o x uv lod))
  | .pixel r c => (s.performPixel o r c).opComplete o
  | .tail n v =>
    match o.wnum with
    | some w => s.tailWrite o.ctx n { n := v, core := o.core, bank := o.bank, wnum := w, team := o.team }
    | none => s.raiseTail o.ctx n v

/-- AN ACCESS IS PERFORMED: it leaves the side log, what it reads is used, it takes effect, and an uncorrectable error kills
its team. (DESIGN CHOICE: log 6) -/
def State.perform (s : State) (id : Nat) (o : MemOp) : State :=
  let s := { s with ops := tdel s.ops id }.updCore o.core fun c => { c with sideLog := c.sideLog.erase id }
  ((o.readPieces.foldl (fun s p => s.noteRead p.place p.len) s).effect o).killReader o

/-! ### Remote parts -/

/-- Remote parts of an access that have not been answered. -/
def MemOp.unanswered (o : MemOp) : List Piece :=
  o.pieces.filter fun p => p.path == .remote && !o.got.any fun r => r.addr == p.va

/-- The kind of the request of an access (R379). -/
def MemOp.requestKind (o : MemOp) : RemoteKind :=
  match o.act with
  | .store _ => .store
  | .atomic opc typ _ _ none => .red opc typ
  | .atomic opc typ _ _ (some _) => .atomic opc typ
  | .texture .. => .engRead
  | _ => .load

/-- The scope that a remote access carries: its own, or the default of remote memory, `.pod`; an engine's is `.dev` (R118,
R244). -/
def MemOp.requestScope (o : MemOp) : BitVec 3 :=
  match o.act with
  | .texture .. => devScope
  | _ => if o.scope = 0 then 4 else o.scope

/-- The ord field of a request. -/
def Ord.code : Ord → BitVec 2
  | .plain => 0
  | .acquire | .release => 1
  | .sc => 2
  | .stream => 3

/-- Data and compare value of a request. -/
def MemOp.requestData (o : MemOp) : List Byte × List Byte :=
  match o.act with
  | .store bs => (bs, [])
  | .atomic opc typ b c _ =>
    let n := atomBytes typ
    if opc = 0x5C then (leBytes n c.toNat, leBytes n b.toNat) else (leBytes n b.toNat, leBytes n c.toNat)
  | _ => ([], [])

/-- A request of this access is on its way. -/
def State.asked (s : State) (id : Nat) (p : Piece) : Bool :=
  s.fabric.out.any fun r => r.master == .access id && r.req.addr == p.va

/-- Requests are sent for the remote parts that have none. -/
def State.ask (s : State) (id : Nat) (o : MemOp) : State :=
  o.unanswered.foldl (fun s p =>
    if s.asked id p then s
    else s.sendRemote o.ctx (.access id) p.va p.len o.requestKind o.ord.code o.requestScope o.requestData.1 o.requestData.2) s

/-- The write of a thread that waits for it at issue (R381): the thread itself takes its answer. -/
def State.heldWrite (s : State) (o : MemOp) : Bool :=
  !o.logged && o.wnum.isSome && !o.isAtomicRet && o.pieces.any (fun p => p.path == .remote) && s.issuerLives o

/-- The read of a ray's record in another device's memory (R318): its thread takes the answer at issue. -/
def State.heldRead (s : State) (o : MemOp) : Bool :=
  (match o.act with | .load [] => true | _ => false) && s.issuerLives o

/-- An access may go on now: in order, and, for a logged one, due to retry with no earlier entry of its bank before it
(R126). -/
def State.opReady (s : State) (id : Nat) (o : MemOp) : Bool :=
  !o.stuck && (o.logged || (s.ctx o.ctx).saved.isNone) && (!o.logged || (o.retry &&
    s.ops.all fun p => id ≤ p.1 || !(p.2.logged && p.2.core == o.core && p.2.bank == o.bank))) && s.inOrder id o

/-- Something comes of an access now: it is performed, or a request is sent. -/
def State.opMoves (s : State) (id : Nat) (o : MemOp) : Bool :=
  s.opReady id o && (if o.unanswered.isEmpty then !s.heldWrite o && !s.heldRead o else o.unanswered.any fun p => !s.asked id p)

/-- An access goes on: requests for its remote parts, or its performance. -/
def State.advanceOp (s : State) (id : Nat) (o : MemOp) : State :=
  if !s.opReady id o then s
  else if !o.unanswered.isEmpty then s.ask id o
  else if s.heldWrite o || s.heldRead o then s
  else s.perform id o

/-! ### Logged accesses (R126, R128) -/

/-- A logged access on an unmapped page retries (R126): it is performed, given up with a record, or waits again with a new
record. (DEDUCED: log 38) -/
def State.retryOp (s : State) (id : Nat) (o : MemOp) : State :=
  match tget s.teams o.team with
  | none => s.abandonOp id o
  | some t =>
    let at' := match o.act with | .atomic .. => true | _ => false
    match s.accessFor t .mem false o.sid o.base o.size (if at' then .atomic else .store) at' with
    | (s, .ok ps) => s.perform id { o with pieces := ps }
    | (s, .fault f) => s.failOp id o f.code f.addr
    | (s, .unmapped a _ _) =>
      let s := { s with ops := tupd s.ops id fun o => { o with retry := false } }
      s.opRecord o 0x0C a false false

/-- A logged access whose page was unmapped, not a remote one. -/
def MemOp.unplaced (o : MemOp) : Bool := o.pieces.any fun p => !p.mapped

/-! ### The steps -/

/-- The access brings a value: a load, an atomic with a returned value, a sample. -/
def MemOp.brings (o : MemOp) : Bool :=
  match o.act with
  | .load _ | .atomic _ _ _ _ (some _) | .texture .. => true
  | _ => false

/-- The access is a counted write without a returned value. -/
def MemOp.writes (o : MemOp) : Bool :=
  match o.act with
  | .store _ | .atomic _ _ _ _ none | .pixel .. | .tail .. => true
  | _ => false

/-- PENDING_VALUE_FILL (R15): an access is performed, once the order of R245 allows it, and its values fill. -/
def execPendingValueFill (op : Nat) (s : State) : Host.Outcome State Fault Refusal :=
  match tget s.ops op with
  | none => .next s
  | some o => if o.brings then .next (s.advanceOp op o) else .next s

/-- WRITE_COMPLETE (R132): a counted write is performed and complete. -/
def execWriteComplete (op : Nat) (s : State) : Host.Outcome State Fault Refusal :=
  match tget s.ops op with
  | none => .next s
  | some o =>
    if !o.writes then .next s
    else if o.unplaced then .next (if s.opReady op o then s.retryOp op o else s)
    else .next (s.advanceOp op o)

/-- A command that captured a loading entry has its snapshot (R217). -/
def Capture.loaded (op : Nat) (x : Snap) : Capture → Capture
  | .loading o => if o = op then .valid x else .loading o
  | c => c

/-- A queue whose commands take in the snapshot of a load. -/
def BruinQ.resolve (q : BruinQ) (op : Nat) (x : Snap) : BruinQ :=
  { q with cmds := q.cmds.map fun e => { e with snaps := e.snaps.map fun p => (p.1, p.2.loaded op x) } }

/-- A running entry that takes in the snapshot of a load. -/
def Running.resolve (r : Running) (op : Nat) (x : Snap) : Running :=
  { r with src := r.src.loaded op x, dst := r.dst.loaded op x, idx := r.idx.loaded op x }

/-- Captures of commands and of chain entries take in the snapshot of a load. -/
def State.resolveCaptures (s : State) (ctx op : Nat) (x : Snap) : State :=
  let one := fun t : Team => if t.ctx = ctx then { t with bruin := t.bruin.resolve op x } else t
  let s := { s with teams := tmap s.teams fun _ t => one t }
  s.updCtx ctx fun c =>
    { c with chains := tmap c.chains fun _ ch => { ch with run := ch.run.map fun r => r.resolve op x } }

/-- The entry after a load of it has been performed: valid, unless a later load is on its way. -/
def loadedEntry (op : Nat) (x : Snap) : Option DescEntry → DescEntry
  | some (.loading o) => if o = op then .valid x else .loading o
  | _ => .valid x

/-- DESCRIPTOR_LOAD_COMPLETE (R215, R217): the snapshot is whole, the entry valid, and the identifier fills. -/
def execDescriptorLoadComplete (op : Nat) (s : State) : Host.Outcome State Fault Refusal :=
  match tget s.ops op with
  | none => .next s
  | some o =>
    match o.act with
    | .descriptor id tok =>
      if !s.opReady op o then .next s
      else if !o.unanswered.isEmpty then .next (s.ask op o)
      else
        let x : Snap := { words := leWords 24 (o.pieces.flatMap fun p => s.pieceBytes o p), addr := o.base }
        let s := o.readPieces.foldl (fun s p => s.noteRead p.place p.len) { s with ops := tdel s.ops op }
        let s := s.updCtx o.ctx fun c => { c with desc := tset c.desc id (loadedEntry op x (tget c.desc id)) }
        .next (((s.resolveCaptures o.ctx op x).fillTok o.sid tok (wd id)).killReader o)
    | _ => .next s

/-! ### Records of chains (R293, R294) -/


/-- A running entry of a chain. -/
def State.updRun (s : State) (ctx ch : Nat) (f : Running → Running) : State :=
  s.updChain ctx ch fun c => { c with run := c.run.map f }

/-- The cluster whose copy engine runs the chain's entry: the one that accepted it, while one runs (R281). -/
def Chain.engine (c : Chain) : Nat := (c.run.map Running.cluster).getD c.cluster

/-- A record of a chain (R293): its cluster, and its engine-context number as WID. -/
def State.chainRecord (s : State) (ctx ch : Nat) (code : BitVec 5) (fatal replay : Bool) (addr : Word) (extra : Nat) : State :=
  s.postRecord
    { card := 0, extra := BitVec.ofNat 14 extra, ctx := ctx, cluster := (s.chain ctx ch).engine, core := 0, bank := 0,
      exited := false, replay := replay, fatal := fatal, wid := wd (ringEctx ch), code := code, pc := 0, addr := addr, owner := none,
      engine := if !replay then none else if ch < 64 then some (engChain, ch) else some (engBinner, ch - 64), clk := s.clk }

/-- A chain freezes on a fatal fault (R293): its entry is not complete; one that was draining is abandoned (R281).
(DEDUCED: log 67) -/
def State.freezeChain (s : State) (ctx ch : Nat) (code : BitVec 5) (addr : Word) (extra : Nat) : State :=
  (s.chainRecord ctx ch code true false addr extra).updChain ctx ch fun c =>
    { c with frozen := true, draining := false, run := if c.en then c.run else none }

/-- A chain stalls on an unmapped page (R294). -/
def State.stallChain (s : State) (ctx ch : Nat) (code : BitVec 5) (addr : Word) : State :=
  (s.chainRecord ctx ch code false true addr 0).updChain ctx ch fun c => { c with stall := true }

end Sys2Proof.Machine
end

