-- ==== Sys2Proof/Machine/Chains.lean ====
section
/-! DEFINITION. Copy engines and command chains (R279 to R300). -/

namespace Sys2Proof.Machine

/-! ### Registers (R280, R281, R298, R299) -/

/-- An address is not global to owner 0x00: another owner, or in a window. -/
def State.notGlobal (s : State) (ctx : Nat) (a : Word) : Bool := a.toNat / 2 ^ 56 ≠ 0 || ((s.ctx ctx).window a).isSome

/-- A write of CHCFG with EN = 1 may enable the chain (R280, R281). (DEDUCED: log 36) -/
def State.chainMayEnable (s : State) (ctx ch : Nat) (w : Word) : Bool :=
  let c := s.chain ctx ch
  !c.en && !c.draining && bits w 11 6 != 0 && (s.ctx ctx).part.getLsbD (bits w 5 1) && s.namesEctx ctx (ringEctx ch)
    && !s.notGlobal ctx (wd (bits w 63 12 * 4096))

/-- The fields of CHCFG. -/
def Chain.config (c : Chain) (w : Word) : Chain :=
  { c with base := wd (bits w 63 12 * 4096), len := bits w 11 6, cluster := bits w 5 1, written := true }

/-- A write of CHCFG with EN = 1: the chain is enabled with its origin at CHDONE, or the write is ignored with REJ. -/
def State.enableChain (s : State) (ctx ch : Nat) (w : Word) : State :=
  if s.chainMayEnable ctx ch w then
    s.updChain ctx ch fun c =>
      let c := c.config w
      { c with en := true, frozen := false, stall := false, waitseq := false, line := none, origin := c.done, next := c.done + 1,
               seg := c.base, slot := 0, run := none }
  else s.reject ctx

/-- CHAIN_ENABLE (R281). -/
def execChainEnable (ctx chain : Nat) (w : Word) (s : State) : Host.Outcome State Fault Refusal :=
  if chain < 68 && bitAt w 0 then .next (s.enableChain ctx chain w) else .next s

/-- A write of CHCFG with EN = 0 to an enabled chain: a frozen or stalled entry is abandoned, any other in execution runs
on, and the tails that are never reached are complete. (DEDUCED: log 36) -/
def State.disableChain (s : State) (ctx ch : Nat) : State :=
  let s := s.updChain ctx ch fun c =>
    let drop := c.frozen || c.stall
    { c with en := false, frozen := false, stall := false, waitseq := false, line := none, run := if drop then none else c.run,
             draining := !drop && c.run.isSome }
  s.settleTails ctx ch true

/-- CHAIN_DISABLE (R281). -/
def execChainDisable (ctx chain : Nat) (w : Word) (s : State) : Host.Outcome State Fault Refusal :=
  if chain < 68 && !bitAt w 0 && (s.chain ctx chain).en then .next (s.disableChain ctx chain) else .next s

/-- CHAIN_CONFIG_WRITE (R281). -/
def execChainConfigWrite (ctx chain : Nat) (w : Word) (s : State) : Host.Outcome State Fault Refusal :=
  if chain < 68 && !bitAt w 0 && !(s.chain ctx chain).en then .next (s.updChain ctx chain fun c => c.config w) else .next s

/-- Any write of CHCFG (R281). -/
def State.writeChcfg (s : State) (ctx ch : Nat) (w : Word) : State :=
  if bitAt w 0 then s.enableChain ctx ch w
  else if (s.chain ctx ch).en then s.disableChain ctx ch
  else s.updChain ctx ch fun c => c.config w

/-- CHTAIL_WRITE (R298). -/
def execChtailWrite (ctx chain : Nat) (w : Word) (s : State) : Host.Outcome State Fault Refusal :=
  if chain < 68 then .next (s.raiseTail ctx chain w) else .next s

/-! ### Acceptance (R283 to R285, R293) -/

/-- How a chain's engine reaches memory (R293, R391); a binner has no window. -/
def State.chainEng (s : State) (ctx ch : Nat) (got : List RemoteData) : Eng :=
  { ctx := ctx, cl := (s.chain ctx ch).engine, team := none, tk := .copy, remote := true, eng := true, got := got,
    noWin := decide (64 ≤ ch) }

/-- What stops a chain: an unmapped page stalls it, a remote address sends a request, anything else freezes it.
(DEDUCED: log 37) -/
def State.chainStop (s : State) (ctx ch : Nat) : EngStop → State
  | .unmapped a write => s.stallChain ctx ch (if write then 0x0C else 0x0B) a
  | .fault c a => s.freezeChain ctx ch c a 0
  | .remote a n k d =>
    if s.routed (a.toNat / 2 ^ 56) then
      let num := s.fabric.nextNum.toNat
      (s.sendRemote ctx (.chain ctx ch) a n k 0 devScope d []).updRun ctx ch fun r => { r with waiting := some num }
    else s.freezeChain ctx ch 0x0D a 0

/-- The chain looks at its next entry: enabled, none running, published, and no wait for a write to the entry's line. -/
def State.chainLooks (s : State) (ctx ch : Nat) : Bool :=
  let c := s.chain ctx ch
  c.en && !c.frozen && !c.stall && c.run.isNone && !(s.ctx ctx).frozen && c.next.toNat ≤ c.tail.toNat &&
    (!c.waitseq || c.line.isNone)

/-- The chain waits for a write to the line of its next entry (R285). -/
def State.awaitLine (s : State) (ctx ch : Nat) (a : Word) : State :=
  let line := match (s.engPlaces (s.chainEng ctx ch []) a 64 false).2 with
    | .ok ((p, _) :: _) => some p
    | _ => none
  s.updChain ctx ch fun c => { c with waitseq := true, line := line }

/-- The engine crosses into the next segment (R283). -/
def State.crossLink (s : State) (ctx ch : Nat) : State × Bool :=
  let c := s.chain ctx ch
  let link := c.seg + 0xFC0
  match s.engRead (s.chainEng ctx ch []) link 64 with
  | (s, .error x) => (s.chainStop ctx ch x, false)
  | (s, .ok bs) =>
    let ws := leWords 8 bs
    match reservedAt ws ((List.range 7).map fun i => (i + 1, 63, 0)) with
    | some (w, b) => (s.freezeChain ctx ch 0x03 link (extraAt w b), false)
    | none =>
      if (wordAt ws 0).toNat % 4096 ≠ 0 || s.notGlobal ctx (wordAt ws 0) then (s.freezeChain ctx ch 0x13 link 0xD2, false)
      else (s.updChain ctx ch fun c => { c with seg := wordAt ws 0, slot := 0 }, true)

/-- OP of an entry. -/
def entOp (ws : List Word) : Nat := bits (wordAt ws 1) 31 28

/-- SID and DID of an entry. -/
def entSid (ws : List Word) : Nat := bits (wordAt ws 1) 11 0

/-- DID. -/
def entDid (ws : List Word) : Nat := bits (wordAt ws 1) 23 12

/-- The entry names a source, a destination, an index tensor. -/
def entSrc (ws : List Word) : Bool := [1, 4, 5].contains (entOp ws)

/-- The entry names a destination. -/
def entDst (ws : List Word) : Bool := [1, 3, 4, 5].contains (entOp ws)

/-- The entry names an index tensor. -/
def entIdx (ws : List Word) : Bool := entOp ws == 4 || (entOp ws == 5 && wordAt ws 2 != 0xFFF)

/-- Fields of an entry that must be zero (R284, R286), in rising order. -/
def entReserved (ws : List Word) : List (Nat × Nat × Nat) :=
  let op := entOp ws
  (if entSrc ws || 6 < op then [] else [(1, 11, 0)]) ++ (if entDst ws || 6 < op then [] else [(1, 23, 12)])
  ++ [(1, 27, 24), (1, 34, 32), (1, 63, 36)]
  ++ (match op with
      | 0 | 1 => [(2, 63, 0), (3, 63, 0), (4, 63, 0)]
      | 2 => [(4, 63, 32)]
      | 3 => [(3, 63, 0), (4, 63, 0)]
      | 4 | 5 => [(2, 63, 12), (3, 63, 0), (4, 63, 0)]
      | 6 => [(2, 63, 16), (4, 63, 0)]
      | _ => [])
  ++ [(5, 63, 0), (6, 63, 0), (7, 63, 0)]

/-- An address in the LOCAL or the SHARED window (R293, 0xD5). -/
def State.inPrivate (s : State) (ctx : Nat) (a : Word) : Bool :=
  match (s.ctx ctx).window a with
  | some (.loc, _) | some (.shared, _) => true
  | _ => false

/-- What an entry's words alone show wrong (R293): code and EXTRA. -/
def State.entryFault (s : State) (ctx : Nat) (ws : List Word) : Option (BitVec 5 × Nat) :=
  match reservedAt ws (entReserved ws) with
  | some (w, b) => some (0x03, extraAt w b)
  | none =>
    match entOp ws with
    | 2 => if s.inPrivate ctx (wordAt ws 2) || s.inPrivate ctx (wordAt ws 3) then some (0x13, 0xD5) else none
    | 6 => if s.namesEctx ctx (wordAt ws 2).toNat then none else some (0x13, 0xD6)
    | op => if 6 < op then some (0x13, 0xD1) else none

/-- Where a captured descriptor lies, its load still under way or not. -/
def State.captureAddr (s : State) : Capture → Option Word
  | .valid x => some x.addr
  | .loading o => (tget s.ops o).map MemOp.base
  | .invalid => none

/-- An entry is accepted: its snapshots are captured (R217), the pages of their descriptors enter the copy TLB (R261),
and the walk moves on. -/
def State.startEntry (s : State) (ctx ch : Nat) (ws : List Word) : State :=
  let cap := fun (b : Bool) (id : Nat) => if b then s.captureDesc ctx id else .invalid
  let r : Running :=
    { words := ws, src := cap (entSrc ws) (entSid ws), dst := cap (entDst ws) (entDid ws),
      idx := cap (entIdx ws) (wordAt ws 2).toNat, checked := false, pos := 0, finished := false, waiting := none,
      got := [], cluster := (s.chain ctx ch).cluster, todo := [] }
  let s := ([r.src, r.dst, r.idx].filterMap s.captureAddr).foldl (fun s a => s.prefetch (s.chain ctx ch).cluster .copy ctx a) s
  s.updChain ctx ch fun c => { c with run := some r, waitseq := false, line := none, next := c.next + 1, slot := c.slot + 1 }

/-- The entry at the walk's place is read, and accepted when its number is the next (R285). -/
def State.takeEntry (s : State) (ctx ch : Nat) : State :=
  let c := s.chain ctx ch
  let a := c.seg + wd (64 * c.slot)
  match s.engRead (s.chainEng ctx ch []) a 64 with
  | (s, .error x) => s.chainStop ctx ch x
  | (s, .ok bs) =>
    let ws := leWords 8 bs
    if wordAt ws 0 ≠ c.next then s.awaitLine ctx ch a
    else
      match s.entryFault ctx ws with
      | some (code, e) => (s.startEntry ctx ch ws).freezeChain ctx ch code a e
      | none => s.startEntry ctx ch ws

/-- CHAIN_ENTRY_ACCEPT (R285, R293). (DEDUCED: log 36) -/
def execChainEntryAccept (ctx chain : Nat) (s : State) : Host.Outcome State Fault Refusal :=
  if 64 ≤ chain || !s.chainLooks ctx chain then .next s
  else if (s.chain ctx chain).slot = (s.chain ctx chain).len then
    match s.crossLink ctx chain with
    | (s, true) => .next (s.takeEntry ctx chain)
    | (s, false) => .next s
  else .next (s.takeEntry ctx chain)

/-! ### Checks of the snapshots (R287, R290, R291, R293) -/

/-- SIZE of each dimension. -/
def dSizes (d : List Word) : List Nat := (List.range (dRank d)).map (dSize d)

/-- Formats that COPY and GATHER pair. -/
def copyPair (s d : List Word) : Bool := (dFmt s == dFmt d && dFmt s < 10) || (dFmt s ≤ 5 && dFmt d ≤ 5)

/-- Shapes of GATHER, and of a scatter with the two tensors exchanged. -/
def gatherShape (s d i : List Word) : Bool :=
  let r := dRank s
  2 ≤ r && r ≤ 12 && dRank d == r && dRank i == 1 && (dFmt i == 8 || dFmt i == 9)
    && (List.range (r - 1)).all (fun k => dSize s k == dSize d k) && dSize d (r - 1) == dSize i 0

/-- Shapes of COPY. -/
def copyShape (s d : List Word) : Bool := 1 ≤ dRank s && dRank s ≤ 12 && dRank d == dRank s && dSizes s == dSizes d

/-- Pairing and shape of an operation. -/
def shapeOk (op : Nat) (s d i : List Word) (indexed : Bool) : Bool :=
  match op with
  | 1 => copyPair s d && copyShape s d
  | 4 => copyPair s d && gatherShape s d i
  | 5 => dFmt d == 0 && dFmt s ≤ 5 && (if indexed then gatherShape d s i else copyShape s d)
  | _ => true

/-- A capture's words; none for an invalid entry. -/
def Capture.snap : Capture → Option Snap
  | .valid x => some x
  | _ => none

/-- A capture still waits for its load. -/
def Capture.isLoading : Capture → Bool
  | .loading _ => true
  | _ => false

/-- The snapshots an entry names, in the order source, destination, index. -/
def Running.snaps (r : Running) : List (Option Snap) :=
  (if entSrc r.words then [r.src.snap] else []) ++ (if entDst r.words then [r.dst.snap] else [])
    ++ (if entIdx r.words then [r.idx.snap] else [])

/-- An entry waits for the load of a snapshot it captured. -/
def Running.loading (r : Running) : Bool := r.src.isLoading || r.dst.isLoading || r.idx.isLoading

/-- Words of the source, destination and index snapshots. -/
def Running.srcW (r : Running) : List Word := (r.src.snap.map Snap.words).getD []

/-- Destination. -/
def Running.dstW (r : Running) : List Word := (r.dst.snap.map Snap.words).getD []

/-- Index tensor. -/
def Running.idxW (r : Running) : List Word := (r.idx.snap.map Snap.words).getD []

/-- The first check of R293 that the snapshots fail: code, ADDR (none: the entry's) and EXTRA. -/
def State.snapFault (s : State) (ctx : Nat) (r : Running) : Option (BitVec 5 × Option Word × Nat) :=
  let xs := r.snaps
  if xs.any Option.isNone then some (0x13, none, 0xD4)
  else
    let ds := xs.filterMap id
    if !shapeOk (entOp r.words) r.srcW r.dstW r.idxW (entIdx r.words) then some (0x13, none, 0xD3)
    else if ds.any fun x => dView x.words != 0 then some (0x13, none, 0xD4)
    else
      match ds.findSome? fun x => (descCheck x.words).map fun p => (p.1, x.addr, p.2) with
      | some (c, a, e) => some (c, some a, e)
      | none =>
        if ds.any fun x => s.inPrivate ctx (wordAt x.words 1) || (dDxb x.words && s.inPrivate ctx (wordAt x.words 2)) then
          some (0x13, none, 0xD5)
        else none

/-! ### Elements (R287 to R291) -/

/-- The index of a linear position, dimension 0 fastest. -/
def unlin : List Nat → Nat → List Nat
  | [], _ => []
  | n :: r, p => p % max n 1 :: unlin r (p / max n 1)

/-- Units of a destination: elements, or blocks of a DXB tensor. -/
def unitSizes (d : List Word) : List Nat :=
  match dSizes d with
  | n :: r => (if dDxb d then n / 32 else n) :: r
  | [] => []

/-- Number of units. -/
def unitCount (ns : List Nat) : Nat := ns.foldl (fun a n => a * n) 1

/-- The index of a unit's first element. -/
def unitIx (d : List Word) (p : Nat) : List Nat :=
  match unlin (unitSizes d) p with
  | n :: r => (if dDxb d then 32 * n else n) :: r
  | [] => []

/-- Bytes of a unit. -/
def unitBytes (d : List Word) : Nat := if dDxb d then dBlock d + 2 else fmtBytes (dFmt d)

/-- An index with its last component replaced. -/
def withLast (ix : List Nat) (j : Nat) : List Nat := ix.dropLast ++ [j]

/-- The values of `n` elements along dimension 0. -/
def State.elemRow (s : State) (e : Eng) (d : List Word) (ix : List Nat) : Nat → Nat → List Num → State × Except EngStop (List Num)
  | 0, _, acc => (s, .ok acc.reverse)
  | n + 1, j, acc =>
    match s.elemNum e d ((ix.headD 0 + j) :: ix.drop 1) with
    | (s, .ok v) => s.elemRow e d ix n (j + 1) (v :: acc)
    | (s, .error x) => (s, .error x)

/-- How a unit of an operation ends: done, or stopped with the writes that are left (R294). -/
abbrev UnitEnd := Except (EngStop × List (Word × List Byte)) Unit

/-- A read stops a unit before its writes. -/
def EngStop.unread (x : EngStop) : UnitEnd := .error (x, [])

/-- One unit is copied with conversion (R287). -/
def State.copyUnit (s : State) (e : Eng) (sd dd : List Word) (si di : List Nat) : State × UnitEnd :=
  if dDxb dd then
    if dFmt sd = dFmt dd then
      match s.engRead e (blockAddr sd si) (dBlock sd) with
      | (s, .error x) => (s, x.unread)
      | (s, .ok bs) =>
        match s.engRead e (pairAddr sd si) 2 with
        | (s, .error x) => (s, x.unread)
        | (s, .ok ps) => s.engWrites e [(blockAddr dd di, bs), (pairAddr dd di, ps)]
    else
      match s.elemRow e sd si 32 0 [] with
      | (s, .error x) => (s, x.unread)
      | (s, .ok vs) =>
        let q := dxbQuantise (dEight dd) (dxbSplit dd) vs
        s.engWrites e (blockWrites dd di (q.1 + 256 * q.2.1) q.2.2)
  else if dFmt sd = dFmt dd then
    match s.elemBits e sd si with
    | (s, .error x) => (s, x.unread)
    | (s, .ok b) => s.engWrites e [(elemAddr dd di, leBytes (fmtBytes (dFmt dd)) b)]
  else
    match s.elemNum e sd si with
    | (s, .error x) => (s, x.unread)
    | (s, .ok v) => s.engWrites e [(elemAddr dd di, leBytes (fmtBytes (dFmt dd)) ((fmtOf (dFmt dd)).encode 0 v))]

/-- One unit is filled (R289). -/
def State.fillUnit (s : State) (e : Eng) (d : List Word) (ix : List Nat) (p : Word) : State × UnitEnd :=
  s.engWrites e (
    if dDxb d then blockWrites d ix (bits p 23 8) (List.replicate 32 (if dEight d then bits p 7 0 else bits p 3 0))
    else [(elemAddr d ix, leBytes (fmtBytes (dFmt d)) p.toNat)])

/-- One unit is gathered (R290): beyond the source, zero bits. -/
def State.gatherUnit (s : State) (e : Eng) (sd dd xd : List Word) (ix : List Nat) : State × UnitEnd :=
  match s.elemBits e xd [ix.getLastD 0] with
  | (s, .error x) => (s, x.unread)
  | (s, .ok j) => if dSize sd (dRank sd - 1) ≤ j then s.fillUnit e dd ix 0 else s.copyUnit e sd dd (withLast ix j) ix

/-- A global page of kind UO holds an address. -/
def State.onUo (s : State) (ctx : Nat) (a : Word) : Bool :=
  a.toNat / 2 ^ 56 == 0 && ((s.ctx ctx).window a).isNone &&
    match s.translate ctx a.toNat { read := false, write := false, exec := false, eng := true } with
    | .ok _ k _ _ => decide (k = .uo)
    | _ => false

/-- One contribution is added to an FP32 element (R73, R291). -/
def State.addUnit (s : State) (e : Eng) (a : Word) (v : Num) : State × UnitEnd :=
  if s.onUo e.ctx a then (s, EngStop.unread (.fault 0x0D a))
  else if a.toNat / 2 ^ 56 ≠ 0 ∧ a.toNat / 2 ^ 56 ≠ 255 then
    if e.got.any fun r => r.addr == a && r.bytes.isEmpty then (s, .ok ())
    else (s, EngStop.unread (.remote a 4 .engAdd (leBytes 8 (f64.encode 0 v))))
  else
    match s.engRead e a 4 with
    | (s, .error x) => (s, x.unread)
    | (s, .ok bs) =>
      match s.engPlaces e a 4 true with
      | (s, .error x) => (s, x.unread)
      | (s, .ok ps) => (s.replaceParts ps (leBytes 4 (addContribution (leNat bs) v)), .ok ())

/-- One source element's contribution (R291). (DEDUCED: log 37) -/
def State.redUnit (s : State) (e : Eng) (sd dd : List Word) (xd : Option (List Word)) (ix : List Nat) : State × UnitEnd :=
  match s.elemNum e sd ix with
  | (s, .error x) => (s, x.unread)
  | (s, .ok v) =>
    match xd with
    | none => s.addUnit e (elemAddr dd ix) v
    | some x =>
      match s.elemBits e x [ix.getLastD 0] with
      | (s, .error y) => (s, y.unread)
      | (s, .ok j) =>
        if dSize dd (dRank dd - 1) ≤ j then (s, .ok ()) else s.addUnit e (elemAddr dd (withLast ix j)) v

/-- The bytes of RAW from a position to the end of its burst, at most 4 KiB (R288, R296). -/
def rawPart (ws : List Word) (pos : Nat) : Nat :=
  min (bits (wordAt ws 4) 31 0 - pos) (4096 - ((wordAt ws 3).toNat + pos) % 4096)

/-- One part of RAW is copied. -/
def State.rawUnit (s : State) (e : Eng) (ws : List Word) (pos : Nat) : State × UnitEnd :=
  match s.engRead e (wordAt ws 2 + wd pos) (rawPart ws pos) with
  | (s, .error x) => (s, x.unread)
  | (s, .ok bs) => s.engWrites e [(wordAt ws 3 + wd pos, bs)]

/-- Positions of an operation: bytes of RAW, source elements of REDADD, units of the destination otherwise. -/
def Running.total (r : Running) : Nat :=
  match entOp r.words with
  | 2 => bits (wordAt r.words 4) 31 0
  | 5 => unitCount (dSizes r.srcW)
  | _ => unitCount (unitSizes r.dstW)

/-- Units of one burst (R296). -/
def Running.perBurst (r : Running) : Nat :=
  match entOp r.words with
  | 2 => 1
  | 5 => 1024
  | _ => max 1 (4096 / unitBytes r.dstW)

/-- Bytes one unit moves (R361). -/
def Running.moved (r : Running) : Nat :=
  match entOp r.words with
  | 2 => rawPart r.words r.pos
  | 5 => 4
  | _ => unitBytes r.dstW

/-- Bytes moved by a chain count for its context's capture while a bank of the context is flipped in (R361). -/
def State.countBytes (s : State) (ctx n : Nat) : State :=
  if s.captures ctx then s.updCtx ctx fun c => { c with capBytes := c.capBytes + n } else s

/-- How far one unit moves the position. -/
def Running.stride (r : Running) : Nat := if entOp r.words = 2 then rawPart r.words r.pos else 1

/-- One unit of a running entry, from its beginning. -/
def State.newUnit (s : State) (e : Eng) (r : Running) : State × UnitEnd :=
  match entOp r.words with
  | 1 => s.copyUnit e r.srcW r.dstW (unitIx r.dstW r.pos) (unitIx r.dstW r.pos)
  | 2 => s.rawUnit e r.words r.pos
  | 3 => s.fillUnit e r.dstW (unitIx r.dstW r.pos) (wordAt r.words 2)
  | 4 => s.gatherUnit e r.srcW r.dstW r.idxW (unitIx r.dstW r.pos)
  | _ => s.redUnit e r.srcW r.dstW (if entIdx r.words then some r.idxW else none) (unlin (dSizes r.srcW) r.pos)

/-- One unit of a running entry; one that an access stopped after its reads goes on with the writes that are left (R294). -/
def State.unit (s : State) (e : Eng) (r : Running) : State × UnitEnd :=
  match r.todo with
  | [] => s.newUnit e r
  | ws => s.engWrites e ws

/-- Units of a burst, one after another, until the burst or the entry ends or an access stops it. -/
def State.units (s : State) (ctx ch : Nat) : Nat → State
  | 0 => s
  | n + 1 =>
    match (s.chain ctx ch).run with
    | none => s
    | some r =>
      if r.total ≤ r.pos then s
      else
        let e := s.chainEng ctx ch r.got
        match s.unit e r with
        | (s, .ok _) =>
          ((s.countBytes ctx r.moved).updRun ctx ch fun x => { x with pos := x.pos + r.stride, got := [], todo := [] }).units ctx ch n
        | (s, .error (x, rest)) => (s.updRun ctx ch fun x => { x with todo := rest }).chainStop ctx ch x

/-- ONE BURST of a chain's running entry: the checks of its snapshots at first (R293), then up to 4 KiB (R296).
(DESIGN CHOICE: log 8) (DEDUCED: log 36) -/
def State.burst (s : State) (ctx ch : Nat) : State :=
  match (s.chain ctx ch).run with
  | none => s
  | some r =>
    let a := (s.chain ctx ch).seg + wd (64 * ((s.chain ctx ch).slot - 1))
    let bad := if r.checked || entOp r.words = 2 then none else s.snapFault ctx r
    match bad with
    | some (c, x, e) => s.freezeChain ctx ch c (x.getD a) e
    | none =>
      let s := (s.updRun ctx ch fun x => { x with checked := true }).units ctx ch r.perBurst
      s.updRun ctx ch fun x => { x with finished := x.total ≤ x.pos }

/-! ### Turns (R296) -/

/-- A chain holds an accepted entry that moves data and is not stalled. -/
def State.wantsBurst (s : State) (ctx ch : Nat) : Bool :=
  let c := s.chain ctx ch
  !c.frozen && !c.stall && !(s.ctx ctx).frozen &&
    c.run.any fun r => [1, 2, 3, 4, 5].contains (entOp r.words) && !r.finished && r.waiting.isNone && !r.loading

/-- The chain whose turn it is on a cluster's copy engine: round-robin by context, then chain. -/
def State.copyNext (s : State) (cl : Nat) : Option (Nat × Nat) :=
  let all := s.ctxs.flatMap fun p => (p.2.chains.filter fun q => q.2.engine == cl && s.wantsBurst p.1 q.1).map fun q =>
    64 * p.1 + q.1
  let last := (s.cluster cl).copyTurn
  let next := (all.find? fun k => last ≤ k).or all.head?
  next.map fun k => (k / 64, k % 64)

/-- A burst of the chain whose turn it is; the next turn begins after it. -/
def State.takeTurn (s : State) (cl ctx ch : Nat) : State :=
  (s.burst ctx ch).updCluster cl fun c => { c with copyTurn := 64 * ctx + ch + 1 }

/-- COPY_BURST (R296). -/
def execCopyBurst (cluster : Nat) (s : State) : Host.Outcome State Fault Refusal :=
  match s.copyNext cluster with
  | some (ctx, ch) => .next (s.takeTurn cluster ctx ch)
  | none => .next s

/-- The running entry of a chain has this OP. -/
def State.runs (s : State) (ctx ch op : Nat) : Bool := (s.chain ctx ch).run.any fun r => entOp r.words == op

/-- An operation's next burst, when it is its chain's turn. -/
def State.opBurst (s : State) (ctx ch op : Nat) : State :=
  let cl := (s.chain ctx ch).engine
  if s.runs ctx ch op && s.copyNext cl == some (ctx, ch) then s.takeTurn cl ctx ch else s

/-- COPY (R287). -/
def execCopy (ctx chain : Nat) (s : State) : Host.Outcome State Fault Refusal := .next (s.opBurst ctx chain 1)

/-- RAW (R288). -/
def execRaw (ctx chain : Nat) (s : State) : Host.Outcome State Fault Refusal := .next (s.opBurst ctx chain 2)

/-- FILL (R289). -/
def execFill (ctx chain : Nat) (s : State) : Host.Outcome State Fault Refusal := .next (s.opBurst ctx chain 3)

/-- GATHER (R290). -/
def execGather (ctx chain : Nat) (s : State) : Host.Outcome State Fault Refusal := .next (s.opBurst ctx chain 4)

/-- REDADD (R291). -/
def execRedadd (ctx chain : Nat) (s : State) : Host.Outcome State Fault Refusal := .next (s.opBurst ctx chain 5)

/-- The operation of the running entry is done. -/
def State.finishRun (s : State) (ctx ch : Nat) : State := s.updRun ctx ch fun r => { r with finished := true }

/-- A chain's entry may go on: neither the chain nor its context is frozen (R271, R293). -/
def State.entryMoves (s : State) (ctx ch : Nat) : Bool := !(s.chain ctx ch).frozen && !(s.ctx ctx).frozen

/-- CHAIN_NOP (R286): it completes at once. -/
def execChainNop (ctx chain : Nat) (s : State) : Host.Outcome State Fault Refusal :=
  if chain < 64 && s.runs ctx chain 0 && s.entryMoves ctx chain then .next (s.finishRun ctx chain) else .next s

/-- A WAIT entry's timeline has reached its value. -/
def State.chainWaitMet (s : State) (ctx ch : Nat) : Bool :=
  (s.chain ctx ch).run.any fun r =>
    entOp r.words == 6 && decide ((wordAt r.words 3).toNat ≤ (s.timeline ctx (wordAt r.words 2).toNat).toNat)

/-- CHAIN_WAIT (R286). -/
def execChainWait (ctx chain : Nat) (s : State) : Host.Outcome State Fault Refusal :=
  if chain < 64 && s.chainWaitMet ctx chain && s.entryMoves ctx chain then .next (s.finishRun ctx chain) else .next s

/-- The running entry is finished. -/
def State.entryDone (s : State) (ctx ch : Nat) : Bool := (s.chain ctx ch).run.any Running.finished

/-- CHAIN_ENTRY_COMPLETE (R295, R299): CHDONE and the timeline rise, and the tails they reach are complete. -/
def execChainEntryComplete (ctx chain : Nat) (s : State) : Host.Outcome State Fault Refusal :=
  if chain < 64 && s.entryDone ctx chain then
    let s := s.updChain ctx chain fun c => { c with done := c.done + 1, run := none, draining := false }
    .next (s.settleTails ctx chain false)
  else .next s

end Sys2Proof.Machine
end

