-- ==== Sys2Proof/Machine/Queues.lean ====
section
/-! DEFINITION. The instructions of hardware queues and of scratchpad segments: `qinit`, `qstat`, `qclose`, `sdrop`
(R153 to R160). -/

namespace Sys2Proof.Machine

/-- The SHARED base of a lane's context. -/
def Lane.shr (l : Lane) (s : State) : Word := (s.ctx l.team.ctx).shrbase

/-- Bytes of a team's allocation. -/
def Team.alloc (t : Team) : Nat := t.allocSegs * 4096

/-- A hardware queue of a team changes, and the threads blocked on it wake (R155, R156). -/
def State.setQueue (s : State) (tid n : Nat) (f : Queue → Queue) : State :=
  (s.updTeam tid fun t => { t with w := vset t.w n (f (t.queue n)) }).wakeQueue tid n

/-- QINIT (R155). -/
def execQinit (g : BitVec 3) (a b : BitVec 7) (s : State) : Host.Outcome State Fault Refusal :=
  { guard := g, srcs := [(0, a), (1, b)] : Form }.run (fun l s =>
    let base := (l.src 0).toNat
    let ctl := l.src 1
    let n := bits ctl 2 0
    let cap := bits ctl 7 4
    if bits ctl 63 9 ≠ 0 || bitAt ctl 3 || !l.team.hdr.qmask.getLsbD n then .fault (illegalOperand 1 b.toNat)
    else if base % 8 ≠ 0 then .fault (misaligned (l.shr s + wd base))
    else if l.team.alloc < base + 8 * 2 ^ cap then .fault (sharedBounds (l.shr s + wd (max base l.team.alloc)))
    else .ok (s.setQueue l.tid n fun _ =>
      { init := true, closed := false, nostamp := bitAt ctl 8, base := base, logCap := cap, head := 0, tail := 0,
        entries := [] }) []) s

/-- The queue that `qstat` and `qclose` name is absent (R159, R160). -/
def queueAbsent (n : BitVec 3) (h : Header) : Option FaultInfo :=
  if h.qmask.getLsbD n.toNat then none else some (illegalOperand 0 (0x50 + n.toNat))

/-- The word that `qstat` gives (R159). -/
def Queue.stat (q : Queue) : Word :=
  if q.init then
    wd (q.base * 2 ^ 32 + boolNat q.nostamp * 2 ^ 22 + 2 ^ 21 + boolNat q.closed * 2 ^ 20 + q.logCap * 2 ^ 16
      + q.entries.length)
  else wd (boolNat q.closed * 2 ^ 20)

/-- QSTAT (R159). -/
def execQstat (g : BitVec 3) (d : BitVec 6) (n : BitVec 3) (s : State) : Host.Outcome State Fault Refusal :=
  { guard := g, dst := some d, pre := queueAbsent n : Form }.run (fun l s =>
    .ok s [(d, .known (((tget s.teams l.tid).map fun t => (t.queue n.toNat).stat).getD 0))]) s

/-- QCLOSE (R160): closing a closed queue has no further effect. -/
def execQclose (g : BitVec 3) (n : BitVec 3) (s : State) : Host.Outcome State Fault Refusal :=
  { guard := g, pre := queueAbsent n : Form }.run (fun l s =>
    if (tget s.teams l.tid).any fun t => (t.queue n.toNat).closed then .ok s []
    else .ok (s.setQueue l.tid n.toNat fun q => { q with closed := true }) []) s

/-- A store of the thread to slice bytes would still wait for an access of its own in flight: one that shares a byte, as the
accesses lie now, or one that it is ordered after by that access's acquire (R153, R245). -/
def State.touches (s : State) (sid p n : Nat) : Bool :=
  (s.opsOf sid).any fun o => (s.spots o).any (fun q => rangesMeet q.1 q.2 p n)
    || (o.acquires && o.pieces.any fun q => decide (q.kind = .rc))

/-- SDROP (R153): it waits for the thread's own earlier accesses as a store to the range would. -/
def execSdrop (g : BitVec 3) (a b : BitVec 7) (s : State) : Host.Outcome State Fault Refusal :=
  { guard := g, srcs := [(0, a), (1, b)] : Form }.run (fun l s =>
    let o := (l.src 0).toNat
    let n := (l.src 1).toNat
    let cl := sidCluster l.sid
    if o % 4096 ≠ 0 || n % 4096 ≠ 0 then .fault (misaligned (l.shr s + wd o))
    else if l.team.alloc < o + n then .fault (sharedBounds (l.shr s + wd (max o l.team.alloc)))
    else if s.touches l.sid (sliceLoc cl (l.team.allocOff + o)) n then .hold
    else .ok ((List.range (n / 4096)).foldl (fun s i => s.killSeg cl ((l.team.allocOff + o) / 4096 + i)) s) []) s

end Sys2Proof.Machine
end

