-- ==== Sys2Proof/Machine/Raster.lean ====
section
/-! DEFINITION. Binners and bin lists (R307 to R309), the rasteriser and its quad records (R161, R310, R311, R337). -/

namespace Sys2Proof.Machine

/-! ### Primitives (R307) -/

/-- An FP32 value in units of 2^-149; none unless finite. -/
def fx32 (x : Nat) : Option Int :=
  match f32.decode x with
  | .fin neg m e => some (scaled neg m e (-149))
  | _ => none

/-- X0, Y0, X1, Y1, X2, Y2, Z0, Z1, Z2 of a primitive's words; none when one is not finite. -/
def primNums (ws : List Word) : Option (List Int) :=
  allSome ((List.range 9).map fun i => fx32 (bits (wordAt ws (i / 2)) (32 * (i % 2) + 31) (32 * (i % 2))))

/-- The signed area A. -/
def primArea (p : List Int) : Int :=
  let x := fun i => p.getD i 0
  (x 2 - x 0) * (x 5 - x 1) - (x 4 - x 0) * (x 3 - x 1)

/-- DTEST. -/
def primTest (ws : List Word) : Nat := bits (wordAt ws 5) 3 2

/-- A primitive's numbers, unless it is dropped: not finite, without area, or culled. -/
def primKept (ws : List Word) : Option (List Int) :=
  match primNums ws with
  | none => none
  | some p =>
    let a := primArea p
    if a = 0 ∨ (0 < a ∧ bitAt (wordAt ws 5) 1) ∨ (a < 0 ∧ bitAt (wordAt ws 5) 0) then none else some p

/-- What makes a primitive freeze its reader (R309): code and EXTRA. -/
def primBad (ws : List Word) : Option (BitVec 5 × Nat) :=
  match reservedAt ws [(4, 63, 32), (5, 63, 6), (7, 63, 0)] with
  | some (w, b) => some (0x03, extraAt w b)
  | none => if primTest ws = 3 then some (0x13, extraAt 5 2) else none

/-! ### Binner jobs (R308, R309) -/

/-- Where a stream files a completed job. -/
def jobKey (frame ctx b : Nat) : Nat := 256 * frame + 4 * ctx + b

/-- STREAM of a job. -/
def jobStream (ws : List Word) : Nat := bits (wordAt ws 1) 37 32

/-- What an entry of a binner's ring shows wrong: code and EXTRA. (DEDUCED: log 39) -/
def State.jobFault (s : State) (ctx b : Nat) (ws : List Word) : Option (BitVec 5 × Nat) :=
  let st := s.stream (jobStream ws)
  match reservedAt ws [(1, 63, 38), (4, 63, 32), (6, 63, 0), (7, 63, 0)] with
  | some (w, i) => some (0x03, extraAt w i)
  | none =>
    match firstBad [((wordAt ws 2).toNat % 64 != 0, 2, 0), ((wordAt ws 3).toNat % 8 != 0, 3, 0),
        (bits (wordAt ws 4) 31 0 == 0, 4, 0)] with
    | some (w, i) => some (0x13, extraAt w i)
    | none =>
      if st.state = 0 ∨ st.ctx ≠ ctx ∨ bits (wordAt st.odesc 2) 25 24 ≠ b then some (0x13, 0xD6) else none

/-- A primitive's vertical extent within the render raster meets the closed line range of a strip (R309). -/
def primInStrip (d : List Word) (p : List Int) (strip : Nat) : Bool :=
  let y := fun i => p.getD i 0
  let u : Int := 2 ^ 149
  let lo := max 0 (min (y 1) (min (y 3) (y 5)))
  let hi := min ((odOH d / odC d : Nat) * u) (max (y 1) (max (y 3) (y 5)))
  lo ≤ hi && lo ≤ ((strip + 1) * odRH d : Nat) * u && (strip * odRH d : Nat) * u ≤ hi

/-- The primitives of a job are read and binned: the strips' lists, last index first. -/
def State.binPrims (s : State) (e : Eng) (d ws : List Word) : Nat → Nat → List (List Nat) →
    State × Except (EngStop ⊕ (BitVec 5 × Word × Nat)) (List (List Nat))
  | 0, _, ls => (s, .ok ls)
  | n + 1, i, ls =>
    let a := wordAt ws 2 + wd (64 * i)
    match s.engRead e a 64 with
    | (s, .error x) => (s, .error (.inl x))
    | (s, .ok bs) =>
      let p := leWords 8 bs
      match primBad p with
      | some (c, x) => (s, .error (.inr (c, a, x)))
      | none =>
        let ls := match primKept p with
          | none => ls
          | some q => ls.zipIdx.map fun l : List Nat × Nat => if primInStrip d q l.2 then i :: l.1 else l.1
        s.binPrims e d ws n (i + 1) ls

/-- The count word and the entries of one strip's list (R309). -/
def stripWrites (ns : Nat) (ws : List Word) (strip : Nat) (l : List Nat) : List (Word × List Byte) :=
  let cap := bits (wordAt ws 4) 31 0
  let lists := wordAt ws 3
  let n := l.length
  (lists + wd (8 * strip), leBytes 8 (n + if cap < n then 2 ^ 32 else 0))
    :: ((l.reverse.take cap).zipIdx.map fun p =>
      (lists + wd (8 * ns + 4 * (cap * strip + p.2)), leBytes 4 p.1))

/-- A job is done: the ring's CHDONE and timeline rise, and its lists are known under its frame (R295, R308).
(DEDUCED: log 39) -/
def State.jobDone (s : State) (ctx b : Nat) (ws : List Word) : State :=
  let s := s.updChain ctx (64 + b) fun c => { c with done := c.done + 1, run := none, draining := false }
  (s.settleTails ctx (64 + b) false).updStream (jobStream ws) fun t => { t with jobs := tset t.jobs (jobKey (wordAt ws 5).toNat ctx b) ws }

/-- The lists of a job are written; a write that stops it is where it goes on (R294). -/
def State.writeLists (s : State) (ctx b : Nat) (e : Eng) (ws : List Word) (todo : List (Word × List Byte)) : State :=
  match s.engWrites e todo with
  | (s, .error (x, rest)) => (s.updRun ctx (64 + b) fun r => { r with todo := rest }).chainStop ctx (64 + b) x
  | (s, .ok _) => s.jobDone ctx b ws

/-- A job runs: its primitives are read and its lists written. A REPLAY, or the answer of an owner that it waits for
(R381), lets it go on with the writes that are left; reads are made again from the first. -/
def State.runJob (s : State) (ctx b : Nat) (ws : List Word) : State :=
  let run := (s.chain ctx (64 + b)).run
  let e := s.chainEng ctx (64 + b) ((run.map Running.got).getD [])
  let d := (s.stream (jobStream ws)).odesc
  match (run.map Running.todo).getD [] with
  | [] =>
    match s.binPrims e d ws (bits (wordAt ws 1) 31 0) 0 (List.replicate (odNS d) []) with
    | (s, .error (.inl x)) => s.chainStop ctx (64 + b) x
    | (s, .error (.inr (c, a, x))) => s.freezeChain ctx (64 + b) c a x
    | (s, .ok ls) => s.writeLists ctx b e ws (ls.zipIdx.flatMap fun p => stripWrites (odNS d) ws p.2 p.1)
  | todo => s.writeLists ctx b e ws todo

/-- The entry at the ring's place is read; with the next number it is accepted and its job runs. -/
def State.takeJob (s : State) (ctx b : Nat) : State :=
  let c := s.chain ctx (64 + b)
  let a := c.seg + wd (64 * c.slot)
  match s.engRead (s.chainEng ctx (64 + b) []) a 64 with
  | (s, .error x) => s.chainStop ctx (64 + b) x
  | (s, .ok bs) =>
    let ws := leWords 8 bs
    if wordAt ws 0 ≠ c.next then s.awaitLine ctx (64 + b) a
    else
      match s.jobFault ctx b ws with
      | some (code, e) =>
        (s.updChain ctx (64 + b) fun c => { c with waitseq := false, line := none }).freezeChain ctx (64 + b) code a e
      | none =>
        let r : Running :=
          { words := ws, src := .invalid, dst := .invalid, idx := .invalid, checked := true, pos := 0, finished := false,
            waiting := none, got := [], cluster := 0, todo := [] }
        (s.updChain ctx (64 + b) fun c =>
          { c with run := some r, waitseq := false, line := none, next := c.next + 1, slot := c.slot + 1 }).runJob ctx b ws

/-- A binner has something to do: a job to run or an entry to look at. -/
def State.binnerMoves (s : State) (ctx b : Nat) : Bool :=
  let c := s.chain ctx (64 + b)
  b < 4 && match c.run with
    | some r => !c.frozen && !c.stall && r.waiting.isNone && !(s.ctx ctx).frozen
    | none => s.chainLooks ctx (64 + b)

/-- BINNER_JOB (R308, R309). (DESIGN CHOICE: log 8) -/
def execBinnerJob (ctx binner : Nat) (s : State) : Host.Outcome State Fault Refusal :=
  if !s.binnerMoves ctx binner then .next s
  else
    match (s.chain ctx (64 + binner)).run with
    | some r => .next (s.runJob ctx binner r.words)
    | none =>
      if (s.chain ctx (64 + binner)).slot = (s.chain ctx (64 + binner)).len then
        match s.crossLink ctx (64 + binner) with
        | (s, true) => .next (s.takeJob ctx binner)
        | (s, false) => .next s
      else .next (s.takeJob ctx binner)

/-! ### Strips and their times (R331, R340, R342) -/

/-- t_cons of a strip. -/
def Stream.tCons (st : Stream) (f strip : Nat) : Int :=
  let w := wordAt st.rec'
  ((w 2).toNat + f * bits (w 3) 31 0 + strip * bits (w 3) 63 32 : Nat)

/-- t_need of a strip. -/
def Stream.tNeed (st : Stream) (f strip : Nat) : Int := st.tCons f strip - bits (wordAt st.rec' 4) 31 0

/-- t_start of a strip. -/
def Stream.tStart (st : Stream) (f strip : Nat) : Int := st.tNeed f strip - bits (wordAt st.rec' 4) 63 32

/-- Running number of a strip. -/
def Stream.running (st : Stream) (f strip : Nat) : Nat := odRunning st.odesc f strip

/-- A strip is missed: it counts once (R342). -/
def State.missStrip (s : State) (n g : Nat) : State :=
  s.updStream n fun t =>
    if t.missed.contains g then t
    else { t with misses := t.misses + 1, missed := g :: t.missed, slots := tset t.slots g .missed }

/-! ### The rasteriser (R310) -/

/-- How a rasteriser reaches memory (R381, R391). -/
def rasterEng (ctx cl : Nat) (got : List RemoteData) : Eng :=
  { ctx := ctx, cl := cl, team := none, tk := .copy, remote := true, eng := true, got := got, noWin := true }

/-- A strip that a cluster's rasteriser may begin: stream, act and the words of its binner job. -/
def State.rasterReady (s : State) (cl : Nat) (p : Nat × Stream) (a : OpenAct) : Option (Nat × OpenAct × List Word) :=
  let t := p.2
  let alive := a.team.any fun i => (tget s.teams i).any fun t => !t.finished && !t.gone
  if !a.output && a.zeroed && !a.rasterised && a.closed.isNone && alive && odCluster t.odesc == cl
      && !(s.ctx t.ctx).rasterFrozen.contains cl && !(s.ctx t.ctx).frozen then
    (tget t.jobs (jobKey a.frame t.ctx (bits (wordAt t.odesc 2) 25 24))).map fun ws => (p.1, a, ws)
  else none

/-- The strip that a cluster's rasteriser begins next: of those that may, the one whose act started first. (DEDUCED:
log 40) -/
def State.rasterNext (s : State) (cl : Nat) : Option (Nat × OpenAct × List Word) :=
  minBy (fun x : Nat × OpenAct × List Word => x.2.1.card)
    (s.streams.flatMap fun p => p.2.acts.filterMap fun a => s.rasterReady cl p a)

/-- A record of a rasteriser. -/
def State.rasterRecord (s : State) (cl : Nat) (r : Raster) (code : BitVec 5) (fatal : Bool) (addr : Word) (extra : Nat) :
    State :=
  s.postRecord
    { card := ((tget s.teams r.team).map fun t => s.cardId t).getD 0, extra := BitVec.ofNat 14 extra, ctx := r.ctx,
      cluster := cl, core := 0, bank := 0, exited := false, replay := !fatal, fatal := fatal, wid := wd (0x2000 + cl),
      code := code, pc := 0, addr := addr, owner := none, engine := if fatal then none else some (engRaster, cl),
      clk := s.clk }

/-- The rasteriser of a context in a cluster freezes; its strip is missed. (DEDUCED: log 40) -/
def State.freezeRaster (s : State) (cl : Nat) (r : Raster) (code : BitVec 5) (addr : Word) (extra : Nat) : State :=
  let s := (s.rasterRecord cl r code true addr extra).updCtx r.ctx fun c =>
    { c with rasterFrozen := insRise c.rasterFrozen cl }
  let s := s.updCluster cl fun c => { c with raster := none }
  s.missStrip r.stream ((s.stream r.stream).running r.frame r.strip)

/-- What stops a rasteriser's access: an unmapped page stalls it, a remote address sends a request, a fault freezes it
(R310, R381). -/
def State.stopRaster (s : State) (cl : Nat) (r : Raster) : EngStop → State
  | .unmapped a _ =>
    (s.rasterRecord cl r 0x0B false a 0).updCluster cl fun c => { c with raster := c.raster.map fun r => { r with stalled := true } }
  | .fault c a => s.freezeRaster cl r c a 0
  | .remote a n k d =>
    if s.routed (a.toNat / 2 ^ 56) then
      let num := s.fabric.nextNum.toNat
      (s.sendRemote r.ctx (.raster cl) a n k 0 devScope d []).updCluster cl fun c =>
        { c with raster := c.raster.map fun r => { r with waiting := some num } }
    else s.freezeRaster cl r 0x0D a 0

/-- The entries of a strip's list with their primitives, in list order. -/
def State.rasterPrims (s : State) (e : Eng) (r : Raster) (ns : Nat) : Nat → Nat → List (Nat × List Word) →
    State × Except (EngStop ⊕ (BitVec 5 × Word × Nat)) (List (Nat × List Word))
  | 0, _, ps => (s, .ok ps.reverse)
  | n + 1, k, ps =>
    match s.engRead e (r.lists + wd (8 * ns + 4 * (r.cap * r.strip + k))) 4 with
    | (s, .error x) => (s, .error (.inl x))
    | (s, .ok bs) =>
      let a := r.prims + wd (64 * leNat bs)
      match s.engRead e a 64 with
      | (s, .error x) => (s, .error (.inl x))
      | (s, .ok pb) =>
        match primBad (leWords 8 pb) with
        | some (c, x) => (s, .error (.inr (c, a, x)))
        | none => s.rasterPrims e r ns n (k + 1) ((leNat bs, leWords 8 pb) :: ps)

/-- The strip's list and primitives are read. -/
def State.rasterLoad (s : State) (cl : Nat) (r : Raster) : State :=
  let e := rasterEng r.ctx cl r.got
  match s.engRead e (r.lists + wd (8 * r.strip)) 8 with
  | (s, .error x) => s.stopRaster cl r x
  | (s, .ok bs) =>
    let n := min (leNat bs % 2 ^ 32) r.cap
    match s.rasterPrims e r (odNS (s.stream r.stream).odesc) n 0 [] with
    | (s, .error (.inl x)) => s.stopRaster cl r x
    | (s, .error (.inr (c, a, x))) => s.freezeRaster cl r c a x
    | (s, .ok ps) => s.updCluster cl fun c => { c with raster := some { r with begun := true, list := ps, got := [] } }

/-- A depth word: no primitive, depth +1.0. -/
def farPixel : Nat := 0xFFFFFFFF3F800000

/-- A strip is begun: the depth tile is written, and the list read. (DEDUCED: log 40) -/
def State.rasterBegin (s : State) (cl n : Nat) (a : OpenAct) (ws : List Word) : State :=
  let st := s.stream n
  let d := st.odesc
  let tid := a.team.getD 0
  match tget s.teams tid with
  | none => s
  | some t =>
    let r : Raster :=
      { ctx := st.ctx, stream := n, frame := a.frame, strip := a.strip, team := tid, lists := wordAt ws 3,
        prims := wordAt ws 2, cap := bits (wordAt ws 4) 31 0, begun := false, tras := s.time.now, list := [], tile := 0,
        checked := 0, records := [], stalled := false, waiting := none, got := [] }
    let s := s.updStream n fun x =>
      { x with acts := x.acts.map fun o => if o.card = a.card then { o with rasterised := true } else o }
    let doff := bits (wordAt d 2) 22 0
    let px := odRW d * odRH d
    if t.allocSegs * 4096 < doff + 8 * px then s.freezeRaster cl r 0x07 (wd doff) 0
    else
      let s := s.replaceMem (depthLoc t d 0 0) ((List.replicate px (leBytes 8 farPixel)).flatten)
      if !t.hdr.qmask.getLsbD (bits (wordAt d 0) 2 0) then s.freezeRaster cl r 0x13 0 0
      else (s.updCluster cl fun c => { c with raster := some r }).rasterLoad cl r

/-- Lines of a strip inside the raster (R301). -/
def stripLines (d : List Word) (strip : Nat) : Nat := min (odRH d) (odOH d / odC d - strip * odRH d)

/-- The exact edge functions of a primitive at a point in units of 2^-149, each with its third vertex and whether its zero
counts as inside; signed so that inside is positive. -/
def edgesAt (p : List Int) (px py : Int) : List (Int × Nat × Bool) :=
  let x := fun i => p.getD (2 * i) 0
  let y := fun i => p.getD (2 * i + 1) 0
  let sg : Int := if 0 < primArea p then 1 else -1
  [(0, 1, 2), (1, 2, 0), (2, 0, 1)].map fun t : Nat × Nat × Nat =>
    let (i, j, k) := t
    let dx := x j - x i
    let dy := y j - y i
    let side := (x k - x i) * dy - (y k - y i) * dx
    let incl := if dy = 0 then decide (y i < y k) else if 0 < dy then decide (0 < side) else decide (side < 0)
    (sg * (dx * (py - y i) - dy * (px - x i)), k, incl)

/-- A sample point is covered (R310). -/
def covered (es : List (Int × Nat × Bool)) : Bool := es.all fun e => 0 < e.1 || (e.1 == 0 && e.2.2)

/-- The plane's depth at a point, rounded once to FP32. -/
def depthAt (p : List Int) (es : List (Int × Nat × Bool)) : Nat :=
  let num := es.foldl (fun a e => a + p.getD (6 + e.2.1) 0 * e.1) 0
  let den := (primArea p).natAbs
  let m := num.natAbs * 2 ^ 64
  f32.round 0 (decide (num < 0)) (m / den) (-213) (m % den != 0)

/-- DTEST against a stored depth: 0 always, 1 less, else less or equal. -/
def depthPasses (test z stored : Nat) : Bool :=
  test == 0 || (!f32.isNan stored &&
    let c := (f32.decode z).cmp (f32.decode stored)
    if test = 1 then c < 0 else c ≤ 0)

/-- A depth word is read (R152): a dead segment stops the rasteriser, with the word's offset in the allocation.
(DEDUCED: log 40) -/
def State.depthRead (s : State) (t : Team) (d : List Word) (bx by' : Nat) : State × Except EngStop Nat :=
  let a := depthLoc t d bx by'
  if s.deadRange a 4 then (s, .error (.fault 0x09 (wd (a - depthLoc t d 0 0 + bits (wordAt d 2) 22 0))))
  else (s.noteRead a 4, .ok (s.readNat a 4))

/-- Elements taken one after another, each with what the ones before it gave, until one stops. -/
def foldStop {α β : Type} (f : State → β → α → State × Except EngStop β) : List α → State → β → State × Except EngStop β
  | [], s, b => (s, .ok b)
  | a :: r, s, b =>
    match f s b a with
    | (s, .ok b) => foldStop f r s b
    | (s, .error x) => (s, .error x)

/-- One block of a primitive is tested: the state, and whether it is covered and passes. -/
def State.rasterBlock (s : State) (t : Team) (d : List Word) (strip : Nat) (q : Nat × List Word) (p : List Int)
    (b : Nat × Nat) (bx by' : Nat) : State × Except EngStop Bool :=
  let lines := stripLines d strip
  if lines ≤ by' then (s, .ok false)
  else
    let es := edgesAt p ((2 * bx + b.1 : Nat) * 2 ^ 148) ((2 * (strip * odRH d + by') + b.2 : Nat) * 2 ^ 148)
    if !covered es then (s, .ok false)
    else
      let z := depthAt p es
      match s.depthRead t d bx by' with
      | (s, .error x) => (s, .error x)
      | (s, .ok old) =>
        if !depthPasses (primTest q.2) z old then (s, .ok false)
        else if !bitAt (wordAt q.2 5) 4 then (s, .ok true)
        else
          let word := leBytes 8 (q.1 % 2 ^ 32 * 2 ^ 32 + z)
          ((List.range b.2).foldl (fun s j =>
            if by' + j < lines then s.replaceMem (depthLoc t d bx (by' + j)) ((List.replicate b.1 word).flatten) else s) s,
           .ok true)

/-- A quad record (R311). -/
def quadRecord (level cov qx qy : Nat) (q : Nat × List Word) : Word :=
  wd (level * 2 ^ 60 + cov * 2 ^ 56 + qx * 2 ^ 44 + qy * 2 ^ 38 + boolNat (bitAt (wordAt q.2 5) 5) * 2 ^ 37 + q.1 % 2 ^ 32)

/-- One quad of a primitive: its four blocks, and its record if a sample passes. -/
def State.rasterQuad (s : State) (t : Team) (d : List Word) (strip level : Nat) (q : Nat × List Word) (p : List Int)
    (qx qy : Nat) (rs : List Word) : State × Except EngStop (List Word) :=
  let b := rateBlock level
  let r := foldStop (fun s n i =>
    let x := s.rasterBlock t d strip q p b (2 * qx * b.1 + i % 2 * b.1) (2 * qy * b.2 + i / 2 * b.2)
    (x.1, x.2.map fun hit => n + if hit then 2 ^ i else 0)) (List.range 4) s 0
  (r.1, r.2.map fun n => if n = 0 then rs else rs ++ [quadRecord level n qx qy q])

/-- One primitive in the tile at (x0, y0): quads in raster order. -/
def State.rasterPrim (s : State) (t : Team) (d : List Word) (strip level x0 y0 : Nat) (q : Nat × List Word) (rs : List Word) :
    State × Except EngStop (List Word) :=
  match primKept q.2 with
  | none => (s, .ok rs)
  | some p =>
    let b := rateBlock level
    let nx := 8 / (2 * b.1)
    let ny := 8 / (2 * b.2)
    foldStop (fun s rs i => s.rasterQuad t d strip level q p (x0 / (2 * b.1) + i % nx) (y0 / (2 * b.2) + i / nx) rs)
      (List.range (nx * ny)) s rs

/-- A tile: the primitives in list order; its records. -/
def State.rasterTile (s : State) (t : Team) (d : List Word) (r : Raster) (level : Nat) : State × Except EngStop (List Word) :=
  let cols := odRW d / 8
  foldStop (fun s rs q => s.rasterPrim t d r.strip level (8 * (r.tile % cols)) (8 * (r.tile / cols)) q rs) r.list s []

/-- Tiles of a strip. -/
def stripTiles (d : List Word) (strip : Nat) : Nat := odRW d / 8 * ceilDiv (stripLines d strip) 8

/-- A checkpoint stands after the tiles done (R337). -/
def checkpoint (tile all : Nat) : Bool := tile != 0 && (tile % 16 == 0 || tile == all)

/-- SHADING_RATE_CHECKPOINT (R337): the predicted finish is tested, exactly. -/
def Stream.overruns (st : Stream) (now : Nat) (r : Raster) (all : Nat) : Bool :=
  let limit := (st.tNeed r.frame r.strip - bits (wordAt st.rec' 5) 31 0) * 65536
  limit * r.tile < ((now * r.tile + (all - r.tile) * (now - r.tras) : Nat) : Int)

/-- The level is raised when the test fails and it is below 4. -/
def State.checkRate (s : State) (r : Raster) (all : Nat) : State :=
  let st := s.stream r.stream
  if st.overruns s.time.now r all && st.level.toNat < 4 then
    s.updStream r.stream fun t => { t with level := t.level + 1, raises := t.raises + 1, prevRaised := true }
  else s

/-- The queue of a strip's quad records is closed as `qclose` does. (DEDUCED: log 64) -/
def State.closeQuads (s : State) (r : Raster) : State :=
  s.setQueue r.team (bits (wordAt (s.stream r.stream).odesc 0) 2 0) fun q => { q with closed := true }

/-- A strip ends: its queue is closed and the rasteriser's timeline advances. -/
def State.rasterEnd (s : State) (cl : Nat) (r : Raster) : State :=
  let s := (s.closeQuads r).updCluster cl fun c => { c with raster := none }
  s.setTimeline r.ctx (0x2000 + cl) (s.timeline r.ctx (0x2000 + cl) + 1)

/-- The team of a strip has ended or been killed: what is left of the strip is discarded (R340). -/
def State.rasterGone (s : State) (r : Raster) : Bool := !(tget s.teams r.team).any fun t => !t.finished && !t.gone

/-- The queue of a strip's records is initialised: until then the rasteriser waits to close it too (log 64). -/
def State.quadOpen (s : State) (r : Raster) : Bool :=
  (tget s.teams r.team).any fun t => (t.queue (bits (wordAt (s.stream r.stream).odesc 0) 2 0)).init

/-- A cluster's rasteriser has a step to take. -/
def State.rasterMoves (s : State) (cl : Nat) : Bool :=
  match (s.cluster cl).raster with
  | none => (s.rasterNext cl).isSome
  | some r => s.rasterGone r || (!r.stalled && r.waiting.isNone && !(s.ctx r.ctx).frozen && r.records.isEmpty
      && (!r.begun || r.tile < stripTiles (s.stream r.stream).odesc r.strip || s.quadOpen r))

/-- The next tile of a strip, after the checkpoint that stands before it; or the strip's end. -/
def State.rasterStep (s : State) (cl : Nat) (r : Raster) : State :=
  let d := (s.stream r.stream).odesc
  let all := stripTiles d r.strip
  let due := checkpoint r.tile all && r.checked < r.tile
  let s := if due then s.checkRate r all else s
  if all ≤ r.tile then s.rasterEnd cl r
  else
    match tget s.teams r.team with
    | none => s
    | some t =>
      match s.rasterTile t d r (s.stream r.stream).level.toNat with
      | (s, .error x) => s.stopRaster cl r x
      | (s, .ok rs) => s.updCluster cl fun c =>
        { c with raster := some { r with tile := r.tile + 1, checked := if due then r.tile else r.checked, records := rs } }

/-- RASTER_STRIP (R310, R337): a strip is begun, its next tile walked, or the strip ended. (DESIGN CHOICE: log 8) -/
def execRasterStrip (cluster : Nat) (s : State) : Host.Outcome State Fault Refusal :=
  if !s.rasterMoves cluster then .next s
  else
    match (s.cluster cluster).raster with
    | none =>
      match s.rasterNext cluster with
      | some (n, a, ws) => .next (s.rasterBegin cluster n a ws)
      | none => .next s
    | some r =>
      if s.rasterGone r then .next (s.rasterEnd cluster r)
      else if !r.begun then .next (s.rasterLoad cluster r)
      else .next (s.rasterStep cluster r)

/-- The queue that a strip's records go to has room. -/
def State.quadRoom (s : State) (r : Raster) : Bool :=
  (tget s.teams r.team).any fun t =>
    let q := t.queue (bits (wordAt (s.stream r.stream).odesc 0) 2 0)
    q.init && decide (q.entries.length < 2 ^ q.logCap)

/-- A quad record can be pushed. -/
def State.quadMoves (s : State) (cl : Nat) : Bool :=
  match (s.cluster cl).raster with
  | none => false
  | some r => !r.records.isEmpty && !s.rasterGone r && !(s.ctx r.ctx).frozen && s.quadRoom r

/-- QUAD_RECORD_PUSH (R161, R310): the next record is pushed with stamp 0. -/
def execQuadRecordPush (cluster : Nat) (s : State) : Host.Outcome State Fault Refusal :=
  if !s.quadMoves cluster then .next s
  else
    match (s.cluster cluster).raster with
    | none => .next s
    | some r =>
      match r.records with
      | [] => .next s
      | w :: rest =>
        .next ((s.pushQueue r.team (bits (wordAt (s.stream r.stream).odesc 0) 2 0) 0 (.known w)).updCluster cluster fun c =>
          { c with raster := some { r with records := rest } })

end Sys2Proof.Machine
end

