-- ==== Sys2Proof/Machine/Ray.lean ====
section
/-! DEFINITION. The ray engine (R316 to R318): exact tests of boxes and triangles, the walk of a BVH, the end of a ray. -/

namespace Sys2Proof.Machine

/-! ### Vectors in units of 2^-149 -/

/-- A vector of three exact numbers. -/
abbrev Vec := Int × Int × Int

/-- Difference. -/
def Vec.sub (a b : Vec) : Vec := (a.1 - b.1, a.2.1 - b.2.1, a.2.2 - b.2.2)

/-- Product with a number. -/
def Vec.scale (k : Int) (a : Vec) : Vec := (k * a.1, k * a.2.1, k * a.2.2)

/-- Inner product. -/
def Vec.dot (a b : Vec) : Int := a.1 * b.1 + a.2.1 * b.2.1 + a.2.2 * b.2.2

/-- Cross product. -/
def Vec.cross (a b : Vec) : Vec :=
  (a.2.1 * b.2.2 - a.2.2 * b.2.1, a.2.2 * b.1 - a.1 * b.2.2, a.1 * b.2.1 - a.2.1 * b.1)

/-- Half `i` of the 32-bit values that words hold. -/
def half (ws : List Word) (i : Nat) : Nat := bits (wordAt ws (i / 2)) (32 * (i % 2) + 31) (32 * (i % 2))

/-- The vector in halves `i` to `i + 2`; none unless finite. -/
def vecAt (ws : List Word) (i : Nat) : Option Vec :=
  match fx32 (half ws i), fx32 (half ws (i + 1)), fx32 (half ws (i + 2)) with
  | some x, some y, some z => some (x, y, z)
  | _, _, _ => none

/-- A rational number, its denominator positive. -/
structure Rat' where
  num : Int
  den : Nat
deriving DecidableEq, Repr

/-- Order of rational numbers. -/
def Rat'.le (a b : Rat') : Bool := a.num * b.den ≤ b.num * a.den

/-- A quotient of integers, its denominator made positive. -/
def ratOf (n d : Int) : Rat' := if d < 0 then ⟨-n, d.natAbs⟩ else ⟨n, d.natAbs⟩

/-- A rational number rounded to FP32 under `.rn`. -/
def Rat'.toF32 (r : Rat') : Nat :=
  let m := r.num.natAbs * 2 ^ 256
  f32.round 0 (decide (r.num < 0)) (m / r.den) (-256) (m % r.den != 0)

/-! ### A ray (R317) -/

/-- A ray as the engine traces it; an absent bound is an infinite one that excludes nothing. -/
structure RayIn where
  o : Vec
  d : Vec
  tmin : Option Rat'
  tmax : Option Rat'
  cull : Bool
  any : Bool
deriving DecidableEq, Repr

/-- A bound of the parameter range: none when it excludes nothing. -/
def tBound (x : Nat) : Option Rat' := (fx32 x).map fun v => ⟨v, 2 ^ 149⟩

/-- A ray that can hit at all (R318): finite origin and direction, a direction that is not zero, a range that is not
empty. -/
def rayIn (ws : List Word) : Option RayIn :=
  let lo := f32.decode (half ws 6)
  let hi := f32.decode (half ws 7)
  let bad := match lo, hi with
    | .nan, _ | _, .nan => true
    | .inf false, _ | _, .inf true => true
    | _, _ => decide (0 < lo.cmp hi)
  match vecAt ws 0, vecAt ws 3 with
  | some o, some d =>
    if bad || d == (0, 0, 0) then none
    else some { o := o, d := d, tmin := tBound (half ws 6), tmax := tBound (half ws 7), cull := bitAt (wordAt ws 4) 1,
                any := bitAt (wordAt ws 4) 0 }
  | _, _ => none

/-- A triangle that was hit: t, PRIM, its address, and the barycentrics of v1 and v2. -/
structure RayHit where
  t : Rat'
  prim : Nat
  addr : Word
  u : Rat'
  v : Rat'
deriving DecidableEq, Repr

/-- One axis of a box test: the bounds it sets on t from below and above, or none when it excludes the ray. -/
def boxAxis (lo hi : Num) (o d : Int) : Option (List Rat' × List Rat') :=
  let side := fun (x : Num) (below : Bool) => match x with
    | .fin neg m e =>
      let v := scaled neg m e (-149) - o
      if d = 0 then (if (if below then v ≤ 0 else 0 ≤ v) then some ([], []) else none)
      else if (0 < d) == below then some ([ratOf v d], []) else some ([], [ratOf v d])
    | .inf neg => if neg == below then some ([], []) else none
    | .nan => none
  match side lo true, side hi false with
  | some a, some b => some (a.1 ++ b.1, a.2 ++ b.2)
  | _, _ => none

/-- A box is hit (R318): the closed segment from TMIN to the best t meets it. -/
def boxHit (r : RayIn) (best : Option Rat') (ws : List Word) (i : Nat) : Bool :=
  let x := fun j => f32.decode (half ws (6 * i + j))
  match boxAxis (x 0) (x 3) r.o.1 r.d.1, boxAxis (x 1) (x 4) r.o.2.1 r.d.2.1, boxAxis (x 2) (x 5) r.o.2.2 r.d.2.2 with
  | some a, some b, some c =>
    let lows := r.tmin.toList ++ a.1 ++ b.1 ++ c.1
    let highs := best.toList ++ a.2 ++ b.2 ++ c.2
    lows.all fun l => highs.all fun h => l.le h
  | _, _, _ => false

/-- A triangle is hit (R318), at an address; exact. (DEDUCED: log 41) -/
def triangleHit (r : RayIn) (addr : Word) (ws : List Word) : Option RayHit :=
  match vecAt ws 0, vecAt ws 3, vecAt ws 6 with
  | some a, some b, some c =>
    let e1 := b.sub a
    let e2 := c.sub a
    let n := e1.cross e2
    let den := r.d.dot n
    let off := r.o.sub a
    let num := -off.dot n
    if den = 0 || (r.cull && !bitAt (wordAt ws 5) 0 && decide (0 < den)) then none
    else
      let t := ratOf num den
      let p := (Vec.scale den off).sub (Vec.scale (-num) r.d)
      let all := den * n.dot n
      let u := ratOf ((p.cross e2).dot n) all
      let v := ratOf ((e1.cross p).dot n) all
      if 0 ≤ u.num && 0 ≤ v.num && u.num + v.num ≤ u.den && r.tmin.all (fun m => m.le t) && r.tmax.all (fun m => t.le m) then
        some { t := t, prim := half ws 9, addr := addr, u := u, v := v }
      else none
  | _, _, _ => none

/-- The better of the best hit and a new one: the least t, then the least PRIM, then the lower address. -/
def betterHit (best : Option RayHit) (h : RayHit) : Option RayHit :=
  match best with
  | none => some h
  | some b =>
    if !h.t.le b.t then some b
    else if !b.t.le h.t then some h
    else if h.prim < b.prim ∨ (h.prim = b.prim ∧ h.addr.toNat < b.addr.toNat) then some h else some b

/-! ### The walk (R316, R318) -/

/-- Why a walk ends early. -/
inductive WalkEnd where
  | stop (x : EngStop)
  | bad (node : Word) (extra : Nat)
  | found
deriving DecidableEq, Repr

/-- How the ray engine reaches memory for a team (R318, R381, R391). -/
def Team.rayEng (t : Team) : Eng :=
  { ctx := t.ctx, cl := t.core / 8, team := none, tk := .copy, remote := true, eng := true, got := t.rays.got, noWin := true }

/-- A child word of a node is malformed. -/
def childBad (w : Word) : Bool :=
  bits w 63 62 == 3 || bits w 61 60 != 0 || (bits w 63 62 != 2 && bits w 59 56 != 0)
    || (bits w 63 62 == 1 && bits w 55 0 % 128 != 0) || (bits w 63 62 == 2 && bits w 55 0 % 16 != 0)

/-- What a walk carries: the state, how it ended, the best hit. -/
abbrev Walk := State × Option WalkEnd × Option RayHit

/-- The triangles of a leaf, in order. -/
def walkLeaf (e : Eng) (r : RayIn) (node : Word) (a : Word) : Nat → Nat → Walk → Walk
  | 0, _, w => w
  | n + 1, i, (s, some x, b) => walkLeaf e r node a n (i + 1) (s, some x, b)
  | n + 1, i, (s, none, best) =>
    let at' := a + wd (48 * i)
    match s.engRead e at' 48 with
    | (s, .error x) => (s, some (.stop x), best)
    | (s, .ok bs) =>
      let ws := leWords 6 bs
      if bits (wordAt ws 5) 63 1 ≠ 0 then (s, some (.bad node 0xE2), best)
      else
        match triangleHit r at' ws with
        | none => walkLeaf e r node a n (i + 1) (s, none, best)
        | some h => if r.any then (s, some .found, some h) else walkLeaf e r node a n (i + 1) (s, none, betterHit best h)

/-- A node and what lies below it, depth-first, children in slot order; a path has at most 64 nodes. (DEDUCED: log 41) -/
def walkNode (e : Eng) (r : RayIn) (root : Word) : Nat → Word → Walk → Walk
  | 0, a, (s, _, b) => (s, some (.bad a 0xE3), b)
  | n + 1, a, (s, _, best) =>
    match s.engRead e a 128 with
    | (s, .error x) => (s, some (.stop x), best)
    | (s, .ok bs) =>
      let ws := leWords 16 bs
      if (List.range 4).any fun i => childBad (wordAt ws (12 + i)) then (s, some (.bad a 0xE2), best)
      else
        (List.range 4).foldl (fun (w : Walk) i =>
          let c := wordAt ws (12 + i)
          if w.2.1.isSome || bits c 63 62 == 0 || !boxHit r ((w.2.2.map RayHit.t).or r.tmax) ws i then w
          else if bits c 63 62 = 1 then walkNode e r root n (root + wd (bits c 55 0)) (w.1, none, w.2.2)
          else walkLeaf e r a (root + wd (bits c 55 0)) (bits c 59 56 + 1) 0 w) (s, none, best)

/-! ### The end of a ray (R318) -/

/-- The result of a miss. -/
def missWord : Word := 0x7F800000FFFFFFFF#64

/-- The result of a hit. -/
def RayHit.word (h : RayHit) : Word := wd (h.t.toF32 * 2 ^ 32 + h.prim)

/-- The bytes of U and V of a hit, as its ray's record takes them. -/
def RayHit.uv (h : RayHit) : List Byte := leBytes 4 h.u.toF32 ++ leBytes 4 h.v.toF32

/-- The address at which the engine reaches U and V of a record behind pages: a LOCAL area is its thread's. -/
def State.uvAddr (s : State) (t : Team) (r : Ray) : Word :=
  let c := s.ctx t.ctx
  match c.window r.addr with
  | some (.loc, o) => c.locpool + wd (c.locsz * r.sid + o + 40)
  | _ => r.addr + 40

/-- U and V are written to the ray's record: at its place in the slice, or through pages, which need ENG and WRITE (R260),
or by a request to its owner. (DEDUCED: log 41) -/
def State.writeUV (s : State) (t : Team) (r : Ray) (bs : List Byte) : State × Except EngStop Unit :=
  match r.place with
  | some p => (s.store (p + 40) bs, .ok ())
  | none => s.engWrite t.rayEng (s.uvAddr t r) bs

/-- A ray's queue of a team changes. -/
def State.updRays (s : State) (tid : Nat) (f : RayQ → RayQ) : State := s.updTeam tid fun t => { t with rays := f t.rays }

/-- A ray is finished: its write is complete, its result fills its places, and goes to its hardware queue with stamp 0,
unless its team has ended (R161); tl1 advances. (DEDUCED: log 41) -/
def State.finishRay (s : State) (tid : Nat) (t : Team) (r : Ray) (w : Word) : State :=
  let s := s.updRays tid fun q => { q with rays := q.rays.drop 1, done := q.done + 1, waiting := none, got := [] }
  let s := s.completeWrite t.core t.bank r.wnum
  let s := match r.tok with | some k => s.fillTok r.sid k w | none => s
  match dstW r.dst with
  | some n => if t.finished then s else s.pushQueue tid n 0 (.known w)
  | none => s

/-- A record of a ray queue: the fields of R222. -/
def State.rayRecord (s : State) (tid : Nat) (t : Team) (code : BitVec 5) (fatal : Bool) (addr : Word) (extra : Nat) : State :=
  s.postRecord
    { card := s.cardId t, extra := BitVec.ofNat 14 extra, ctx := t.ctx, cluster := t.core / 8, core := t.core % 8,
      bank := t.bank, exited := false, replay := !fatal, fatal := fatal, wid := t.base, code := code, pc := 0,
      addr := addr, owner := none, engine := if fatal then none else some (engRay, tid), clk := s.clk }

/-- A ray queue stops (R222, R318). (DEDUCED: log 41) (DEDUCED: log 67) -/
def State.stopRays (s : State) (tid : Nat) (t : Team) (code : BitVec 5) (addr : Word) (extra : Nat) : State :=
  ((s.updRays tid fun q => { q with stopped := true }).rayRecord tid t code true addr extra).updCard t.card fun c =>
    { c with out := { c.out with faulted := true } }

/-- What stops an access of a ray queue: an unmapped page stalls it, a remote address sends a request, anything else stops
it (R318, R381). -/
def State.rayStop (s : State) (tid : Nat) (t : Team) : EngStop → State
  | .unmapped a write =>
    (s.updRays tid fun q => { q with stalled := true }).rayRecord tid t (if write then 0x0C else 0x0B) false a 0
  | .fault c a => s.stopRays tid t c a 0
  | .remote a n k d =>
    if s.routed (a.toNat / 2 ^ 56) then
      let num := s.fabric.nextNum.toNat
      (s.sendRemote t.ctx (.ray tid) a n k 0 devScope d []).updRays tid fun q => { q with waiting := some num }
    else s.stopRays tid t 0x0D a 0

/-- The first ray of a queue can go on: the queue runs and waits for no answer, and the hardware queue of a hit record has
room, or its team has ended, and the record is discarded (R161). -/
def State.rayMoves (s : State) (tid : Nat) : Bool :=
  (tget s.teams tid).any fun t =>
    !t.gone && !t.rays.stopped && !t.rays.stalled && t.rays.waiting.isNone && !(s.ctx t.ctx).frozen && !(s.ctx t.ctx).away
      && match t.rays.rays with
      | [] => false
      | r :: _ => match dstW r.dst with
        | none => true
        | some n => t.finished || ((t.queue n).init && decide ((t.queue n).entries.length < 2 ^ (t.queue n).logCap))

/-- A hit's U and V are written, and then its ray finishes. -/
def State.deliverRay (s : State) (tid : Nat) (t : Team) (r : Ray) (w : Word) (bs : List Byte) : State :=
  match s.writeUV t r bs with
  | (s, .ok _) => s.finishRay tid t r w
  | (s, .error x) => s.rayStop tid t x

/-- The first ray of a team's queue is traced; its hit is kept until U and V are written. -/
def State.traceRay (s : State) (tid : Nat) (t : Team) (r : Ray) : State :=
  match r.found, rayIn r.words with
  | some (w, bs), _ => s.deliverRay tid t r w bs
  | none, none => s.finishRay tid t r missWord
  | none, some q =>
    match walkNode t.rayEng q r.root 64 r.root (s, none, none) with
    | (s, some (.stop x), _) => s.rayStop tid t x
    | (s, some (.bad a x), _) => s.stopRays tid t 0x13 a x
    | (s, _, some h) =>
      let s := s.updRays tid fun q =>
        { q with rays := { r with found := some (h.word, h.uv) } :: q.rays.drop 1 }
      s.deliverRay tid t r h.word h.uv
    | (s, _, none) => s.finishRay tid t r missWord

/-- RAY_FINISH (R318). (DESIGN CHOICE: log 8) -/
def execRayFinish (team : Nat) (s : State) : Host.Outcome State Fault Refusal :=
  if !s.rayMoves team then .next s
  else
    match tget s.teams team with
    | none => .next s
    | some t =>
      match t.rays.rays with
      | [] => .next s
      | r :: _ => .next (s.traceRay team t r)

end Sys2Proof.Machine
end

