-- ==== Sys2Proof/Machine/Answers.lean ====
section
/-! DEFINITION. Answers to remote requests, or their absence (R364, R381). -/

namespace Sys2Proof.Machine

/-- A read or write of a request, as a page fault's code. -/
def pageCode (r : RemoteReq) : BitVec 5 :=
  match r.kind with
  | .store | .engWrite | .red _ _ | .atomic _ _ | .engAdd => 0x0C
  | _ => 0x0B

/-- The strip that a cluster's rasteriser is at, while it waits for an answer. -/
def State.rasterWaits (s : State) (cl : Nat) (num : BitVec 32) : Option Raster :=
  (s.cluster cl).raster.filter fun r => r.waiting == some num.toNat

/-- A team whose ray queue waits for an answer. -/
def State.raysWait (s : State) (tid : Nat) (num : BitVec 32) : Option Team :=
  (tget s.teams tid).filter fun t => t.rays.waiting == some num.toNat

/-- What a refusal or a missing answer does to the master of a request (R381): the team of a thread's access freezes, an
engine's context freezes. -/
def State.failRemote (s : State) (r : RemoteOut) (code : BitVec 5) : State :=
  match r.master with
  | .access id => match tget s.ops id with | some o => s.failOp id o code r.req.addr | none => s
  | .chain ctx ch => s.freezeChain ctx ch code r.req.addr 0
  | .ray tid => match s.raysWait tid r.num with | some t => s.stopRays tid t code r.req.addr 0 | none => s
  | .raster cl => match s.rasterWaits cl r.num with | some x => s.freezeRaster cl x code r.req.addr 0 | none => s

/-- What an unmapped page at the owner does to a thread's access (R381). (DEDUCED: log 38) -/
def State.pageAccess (s : State) (id : Nat) (o : MemOp) (addr : Word) : State :=
  if o.logged then
    let s : State := { s with ops := tupd s.ops id fun o => { o with retry := false } }
    s.opRecord o 0x0C addr false false
  else if s.heldWrite o then ((s.opRecord o 0x0C addr false true).haltIssuer o).dropOp id
  else if s.heldRead o then ((s.opRecord o 0x0B addr false true).haltIssuer o).dropOp id
  else
    let s : State := { s with ops := tupd s.ops id fun o => { o with stuck := true } }
    (s.opRecord o 0x0B addr false true).haltIssuer o

/-- What an unmapped page at the owner does to the master of a request (R381): an engine stalls as R294 says.
(DEDUCED: log 37) -/
def State.pageRemote (s : State) (r : RemoteOut) : State :=
  match r.master with
  | .access id => match tget s.ops id with | some o => s.pageAccess id o r.req.addr | none => s
  | .chain ctx ch => (s.stallChain ctx ch (pageCode r.req) r.req.addr).updRun ctx ch fun x => { x with waiting := none }
  | .ray tid =>
    match s.raysWait tid r.num with
    | none => s
    | some t => (s.rayStop tid t (.unmapped r.req.addr (pageCode r.req == 0x0C))).updRays tid fun q => { q with waiting := none }
  | .raster cl =>
    match s.rasterWaits cl r.num with
    | none => s
    | some x => (s.stopRaster cl x (.unmapped r.req.addr false)).updCluster cl fun c =>
        { c with raster := c.raster.map fun x => { x with waiting := none } }

/-- An answer with data, or an acknowledgement, reaches the master of a request. -/
def State.dataRemote (s : State) (r : RemoteOut) (d : List Byte) : State :=
  let g : RemoteData := { addr := r.req.addr, bytes := d }
  match r.master with
  | .access id => { s with ops := tupd s.ops id fun o => { o with got := o.got ++ [g] } }
  | .chain ctx ch => s.updRun ctx ch fun x => { x with waiting := none, got := x.got ++ [g] }
  | .ray tid =>
    if (s.raysWait tid r.num).isNone then s
    else s.updRays tid fun q => { q with waiting := none, got := q.got ++ [g] }
  | .raster cl =>
    if (s.rasterWaits cl r.num).isNone then s
    else s.updCluster cl fun c => { c with raster := c.raster.map fun x => { x with waiting := none, got := x.got ++ [g] } }

/-- A request of this number that has been sent leaves the list. -/
def State.takeOut (s : State) (n : Nat) : Option (RemoteOut × State) :=
  (s.fabric.out.find? fun r => r.num.toNat == n && !r.waiting).map fun r =>
    (r, { s with fabric := { s.fabric with out := s.fabric.out.erase r } })

/-- REMOTE_RESPONSE (R381): the answer to the request of that number arrives. -/
def execRemoteResponse (op : Nat) (a : RemoteAns) (s : State) : Host.Outcome State Fault Refusal :=
  match s.takeOut op with
  | none => .next s
  | some (r, s) =>
    match a with
    | .data d => .next (s.dataRemote r d)
    | .nakUnmapped => .next (s.pageRemote r)
    | .nakProt => .next (s.failRemote r 0x0D)

/-- A request's time is up (R378, R381). -/
def State.remoteDue (s : State) (r : RemoteOut) : Bool := !r.waiting && r.sent + 1000 * s.fabric.fto.toNat ≤ s.ns

/-- REMOTE_TIMEOUT (R381): no answer within FTO. -/
def execRemoteTimeout (op : Nat) (s : State) : Host.Outcome State Fault Refusal :=
  match s.takeOut op with
  | none => .next s
  | some (r, t) => if s.remoteDue r then .next (t.failRemote r 0x1A) else .next s

/-- HOST_TIMEOUT (R364): an access to host memory gets no completion; FABRIC_TIMEOUT against its master. An access in flight
fails now; the word of host memory is marked for the next access that an engine, a die unit or a fetch makes to it; a write
of a die unit stands for itself. (DESIGN CHOICE: log 65) -/
def execHostTimeout (access : HostAccess) (s : State) : Host.Outcome State Fault Refusal :=
  match access with
  | .next off => if off < 2 ^ 23 then .next { s with flaws := tset s.flaws (hostLoc off / 8) 4 } else .next s
  | .unit ctx va => .next (s.engineRecord ctx 0 0 0 0x1A false false va 0)
  | .flying id =>
    match tget s.ops id with
    | none => .next s
    | some o =>
      match o.pieces.find? fun p => p.path == .hostWindow with
      | none => .next s
      | some p => .next (s.failOp id o 0x1A p.va)

end Sys2Proof.Machine
end

