-- ==== Sys2Proof/Machine/Clock.lean ====
section
/-! DEFINITION. Device time (R322, R323) and its discipline (R324, R325). -/

namespace Sys2Proof.Machine

/-- The time-sync block changes. -/
def State.updTime (s : State) (f : TimeSt → TimeSt) : State := { s with time := f s.time }

/-- RATEADJ as a number. -/
def TimeSt.rate (t : TimeSt) : Int := sgn 32 t.rateadj.toNat

/-- The limit of RATEADJ, 200 ppm in units of 2^-40. -/
def rateLimit : Nat := 219902326

/-- Device time in units of 100 ms, in each of which the scrubber passes once (R185). -/
def TimeSt.scrubNo (t : TimeSt) : Nat := t.now / 65536 / 100000000

/-- One clock of 10/17 ns, corrected by RATEADJ, of which FREE applies none (R325): exact, the remainder kept in units of
2^-16 ns / (17 × 2^40). (DESIGN CHOICE: log 47) -/
def TimeSt.tick (t : TimeSt) : TimeSt :=
  let x := t.residue + (655360 * (2 ^ 40 + if t.state = 0 then 0 else t.rate)).toNat
  { t with now := t.now + x / (17 * 2 ^ 40), residue := x % (17 * 2 ^ 40), scrubbed := t.scrubNo }

/-- TIMENS is read: the fraction of the same instant is latched (R323). -/
def TimeSt.latch (t : TimeSt) : TimeSt := { t with fracLatch := BitVec.ofNat 16 t.now }

/-- TIMENS_READ (R323). -/
def execTimensRead (s : State) : Host.Outcome State Fault Refusal := .next (s.updTime TimeSt.latch)

/-- The discipline is on: EN is 1 and PORT names a port (R323, R325). -/
def TimeSt.on (t : TimeSt) : Bool := t.en && (t.port.toNat < 18 || t.port == 31)

/-- A message of a domain on a port is accepted (R324). -/
def TimeSt.accepts (t : TimeSt) (domain port : Nat) : Bool := t.on && t.domain.toNat == domain && t.port.toNat == port

/-- A write of EN, PORT or DOMAIN leaves the discipline FREE when it is off (R325). -/
def TimeSt.settle (t : TimeSt) : TimeSt :=
  if t.on then t else { t with state := 0, t1 := none, t2 := none, t3 := none, good := 0 }

/-- SYNC (R324): its arrival time t2 is taken, and a new exchange begins. -/
def execSync (domain port : Nat) (s : State) : Host.Outcome State Fault Refusal :=
  if s.time.accepts domain port then .next (s.updTime fun t => { t with t1 := none, t2 := some s.ns, t3 := none })
  else .next s

/-- FOLLOW_UP (R324): t1 of the Sync before it. -/
def execFollowUp (domain port t1 : Nat) (s : State) : Host.Outcome State Fault Refusal :=
  if s.time.accepts domain port && s.time.t2.isSome then .next (s.updTime fun t => { t with t1 := some t1 }) else .next s

/-- The 44 octets of a Delay_Req message (R324): its type and version, its length, the DOMAIN, flags and correction of zero,
the port identity and sequence number, which no rule states, its control and interval octets, and an origin time of zero.
(PRESUMED: log 71) -/
def delayReqBytes (domain free : Nat) : List Byte :=
  [0x01, 0x12, 0, 44, BitVec.ofNat 8 domain, 0, 0, 0] ++ List.replicate 12 0 ++ (List.range 12).map (Config.messageByte free)
    ++ [0x01, 0x7F] ++ List.replicate 10 0

/-- DELAY_REQ (R324, R382): its departure time t3 is taken, and it goes out on the block's port: a fabric port's control
channel, or the mailbox of the host link. -/
def execDelayReq (s : State) : Host.Outcome State Fault Refusal :=
  if s.time.on then
    let bs := delayReqBytes s.time.domain.toNat s.freeCtr
    let p := s.time.port.toNat
    let t := s.useFree.updTime fun t => { t with t3 := some s.ns }
    if p = 31 then .next (t.updTime fun t => { t with mailbox := t.mailbox ++ [(s.ns, bs)] })
    else .next { t with fabric := { s.fabric with control := s.fabric.control ++ [.delayReq p s.ns bs] } }
  else .next s

/-- ANNOUNCE (R324): ignored. -/
def execAnnounce (domain port : Nat) (s : State) : Host.Outcome State Fault Refusal :=
  if s.time.accepts domain port then .next s else .next s

/-- The offset of a complete exchange, in ns (R324). (DESIGN CHOICE: log 47) -/
def exchangeOffset (t1 t2 t3 t4 : Nat) : Int := (((t2 : Int) - t1) - ((t4 : Int) - t3)).fdiv 2

/-- A stream is admitted. -/
def State.streaming (s : State) : Bool := s.streams.any fun p => p.2.state != 0

/-- A rate toward zero offset: of the size given, at most the limit. -/
def rateToward (off : Int) (size : Nat) : BitVec 32 :=
  let r : Int := min size rateLimit
  BitVec.ofInt 32 (if 0 < off then -r else if off < 0 then r else 0)

/-- The state after an exchange with an offset (R325). -/
def TimeSt.after (t : TimeSt) (off : Int) : TimeSt :=
  let good := if off.natAbs ≤ 100 then t.good + 1 else 0
  let state := if t.state = 2 then 2 else if 16 ≤ good then 2 else 1
  { t with toffset := wi off, good := good, state := state, t1 := none, t2 := none, t3 := none }

/-- The correction of an exchange (R325): a step, the limit, or a slew whose size is a free value. (DESIGN CHOICE: log 47) -/
def State.discipline (s : State) (off : Int) : State :=
  let far := 1000000 < off.natAbs
  let s := s.updTime fun t => t.after off
  let s :=
    if far && s.streaming then
      (s.updTime fun t => { t with alarm := true, rateadj := rateToward off rateLimit }).fire 64
    else if far && s.time.state == 1 then
      let s := s.updTime fun t => { t with stepped := true, now := ((t.now : Int) - off * 65536).toNat }
      { s with series := { s.series with lastTick := s.ns / 2 ^ s.series.k } }.fire 64
    else
      let size := Config.slewRate s.freeCtr
      let dir := if s.time.state = 1 then off else Config.slewSide s.freeCtr
      (s.updTime fun t => { t with rateadj := rateToward dir size }).useFree
  s.updTime fun t => { t with last := t.now / 65536 }

/-- DELAY_RESP (R324, R325): it completes an exchange. -/
def execDelayResp (domain port t4 : Nat) (s : State) : Host.Outcome State Fault Refusal :=
  match s.time.t1, s.time.t2, s.time.t3 with
  | some t1, some t2, some t3 =>
    if s.time.accepts domain port then .next (s.discipline (exchangeOffset t1 t2 t3 t4)) else .next s
  | _, _, _ => .next s

/-- No exchange has completed for 1 s. -/
def State.holds (s : State) : Bool :=
  (s.time.state == 1 || s.time.state == 2) && decide (s.time.last + 1000000000 ≤ s.ns)

/-- HOLDOVER (R325): the rate keeps its last value. -/
def execHoldover (s : State) : Host.Outcome State Fault Refusal :=
  if s.holds then .next (s.updTime fun t => { t with state := 3, good := 0 }) else .next s

end Sys2Proof.Machine
end

