-- ==== Sys2Proof/Machine/Control.lean ====
section
/-! DEFINITION. Control instructions: branches, calls, regrouping, ending and halting a thread (R98 to R108). -/

namespace Sys2Proof.Machine

/-- The form of a control instruction (R98). -/
def formControl (g : BitVec 3) (ban : Bool) : Form :=
  { guard := g, noHmod := true, noHimm := true, windowBan := ban, control := true }

/-- The target of a B-format branch (R102). -/
def branchTarget (pc : Word) (o : BitVec 22) : Word := pc + 4 + 4 * sx o

/-- BRA (R102). -/
def execBra (g : BitVec 3) (o : BitVec 22) (s : State) : Host.Outcome State Fault Refusal :=
  (formControl g true).run (fun l s => .goto s (branchTarget l.pc o)) s

/-- CALL (R103): v31 is written directly and becomes live. -/
def execCall (g : BitVec 3) (o : BitVec 22) (s : State) : Host.Outcome State Fault Refusal :=
  { formControl g true with post := fun h => if h.nreg < 32 then some (illegalOperand 3 0x2F) else none }.run (fun l s =>
    .goto ((s.touch l.sid [16 + 31]).updThread l.sid fun th =>
      { th with v := vset th.v 31 (.known (l.pc + 4)), vdead := th.vdead &&& 0x7FFFFFFF#32 }) (branchTarget l.pc o)) s

/-- BRX (R104). (DESIGN CHOICE: log 18) -/
def execBrx (g : BitVec 3) (a : BitVec 7) (s : State) : Host.Outcome State Fault Refusal :=
  { formControl g true with srcs := [(0, a)], noHimm := false }.run (fun l s =>
    let tgt := l.src 0
    if bits tgt 63 56 ≠ 0 then .fault (protection tgt)
    else if bits tgt 1 0 ≠ 0 then .fault (misaligned tgt)
    else .goto s tgt) s

/-- REFORM (R105). -/
def execReform (g : BitVec 3) (o : BitVec 22) (s : State) : Host.Outcome State Fault Refusal :=
  (formControl g true).run (fun l s => .gone ((s.leaveGroup l.sid).fileThread l.sid (branchTarget l.pc o))) s

/-- EXIT (R106). -/
def execExit (g : BitVec 3) (s : State) : Host.Outcome State Fault Refusal :=
  (formControl g true).run (fun l s => .gone (s.endThread l.sid)) s

/-- A fault of a halting instruction: the thread halts, and only a RESUME or a kill ends that (R107, R108, R112). -/
def haltFault (code : BitVec 5) (h : Halt) (addr : Word) (extra : Nat) : FaultInfo :=
  { code := code, cls := .halt h, addr := addr, extra := extra, replay := false }

/-- TRAP (R107). -/
def execTrap (g : BitVec 3) (a : BitVec 7) (n : BitVec 8) (s : State) : Host.Outcome State Fault Refusal :=
  { formControl g false with srcs := [(0, a)] }.run (fun l s =>
    .halts s (haltFault 0x18 .softTrap (l.src 0) n.toNat) (l.pc + 4)) s

/-- BKPT (R108). -/
def execBkpt (g : BitVec 3) (s : State) : Host.Outcome State Fault Refusal :=
  (formControl g false).run (fun l s => .halts s (haltFault 0x17 .breakpoint 0 0) (l.pc + 4)) s

/-- `bkpt.stop` may stop the core from a bank (R356). -/
def CoreSt.stopEnabled (c : CoreSt) (bank : Nat) : Bool := if bank = 0 then c.stop.ena else c.stop.enb

/-- BKPT_STOP (R108, R356): with the bank's EN bit set the core stops on this clock; the dump follows (R358). -/
def execBkptStop (g : BitVec 3) (s : State) : Host.Outcome State Fault Refusal :=
  (formControl g false).run (fun l s =>
    let c := sidCore l.sid
    let s := if (s.core c).stopEnabled (sidBank l.sid) && !(s.core c).stop.stopped then
        s.updCore c fun k => { k with stop := { k.stop with stopped := true, since := s.clk, requested := true, dumped := false } }
      else s
    .halts s (haltFault 0x17 .breakpoint 0 1) (l.pc + 4)) s

end Sys2Proof.Machine
end

