-- ==== Sys2Proof/Machine/FrontEnd.lean ====
section
/-! DEFINITION. Host queues and their packets (R344 to R350). -/

namespace Sys2Proof.Machine

/-- Packets in a queue's ring. -/
def HostQ.size (q : HostQ) : Nat := if q.logn8 then 256 else 64

/-- Address of packet `n` of a queue. -/
def HostQ.packetAddr (q : HostQ) (n : Nat) : Word := wd (q.rbase.toNat / 4096 * 4096) + wd (64 * (n % q.size))

/-! ### Registers (R344) -/

/-- KICK of a queue is raised (R298, R344). -/
def State.kickHostq (s : State) (q : Nat) (w : Word) : State :=
  s.updHostq q fun h => { h with kick := monoMax h.kick w, written := true }

/-- KICK_WRITE: the monotonic-maximum rule. -/
def execKickWrite (q : Nat) (w : Word) (s : State) : Host.Outcome State Fault Refusal := .next (s.kickHostq q w)

/-- The fields of word 0. -/
def HostQ.config (h : HostQ) (w : Word) : HostQ :=
  { h with rbase := wd (bits w 63 12 * 4096), ctx := bits w 11 6, qprio := bits w 5 2, logn8 := bitAt w 1, written := true }

/-- A word-0 write with EN = 1: a disabled queue is enabled and goes on at packet DONE; on an enabled one it is ignored
and sets REJ. (DESIGN CHOICE: log 57) -/
def State.enableHostq (s : State) (q : Nat) (w : Word) : State :=
  if (s.hostq q).en then s.reject (s.hostq q).ctx
  else s.updHostq q fun h => { h.config w with en := true, stopped := false, fcode := 0 }

/-- HOST_QUEUE_ENABLE (R344). -/
def execHostQueueEnable (q : Nat) (w : Word) (s : State) : Host.Outcome State Fault Refusal := .next (s.enableHostq q w)

/-- The packet of a queue is in execution on its control core (R346). -/
def State.inExecution (s : State) (q : Nat) : Bool := (s.ctlCore (q % 4)).cur == some q

/-- A word-0 write with EN = 0: fetching stops, and every packet but the one in execution is discarded; a disabled queue
takes the word's fields. (DESIGN CHOICE: log 57) -/
def State.disableHostq (s : State) (q : Nat) (w : Word) : State :=
  if (s.hostq q).en then
    s.updHostq q fun h => { h with en := false, fetched := if s.inExecution q then h.fetched.take 1 else [] }
  else s.updHostq q fun h => h.config w

/-- HOST_QUEUE_DISABLE (R344). -/
def execHostQueueDisable (q : Nat) (w : Word) (s : State) : Host.Outcome State Fault Refusal := .next (s.disableHostq q w)

/-! ### Fetching (R349) -/

/-- Number of the next packet to fetch. -/
def HostQ.nextFetch (h : HostQ) : Nat := h.done.toNat + h.fetched.length

/-- A queue has a packet to fetch. -/
def HostQ.mayFetch (h : HostQ) : Bool := h.en && !h.stopped && h.fetched.length < 64 && h.nextFetch < h.kick.toNat

/-- PACKET_FETCH (R349): a packet is read once; one whose ring cannot be read stands without words. -/
def execPacketFetch (q : Nat) (s : State) : Host.Outcome State Fault Refusal :=
  let h := s.hostq q
  if h.mayFetch then
    let n := h.nextFetch
    let a := h.packetAddr n
    let outside := ((s.ctx h.ctx).window a).isSome
    let ws := if outside then [] else ((s.agentRead h.ctx a false 64).map (leWords 8)).getD []
    let flaw := if outside then none else s.agentFlaw h.ctx a false 64
    let s := if outside then s else s.agentTouch h.ctx a false 64
    .next (s.updHostq q fun h => { h with fetched := h.fetched ++ [{ num := wd n, words := ws, flaw := flaw }] })
  else .next s

/-! ### Executing (R346, R347) -/

/-- A queue has a fetched packet to execute. -/
def HostQ.packetReady (h : HostQ) : Bool := h.en && !h.stopped && !h.fetched.isEmpty

/-- The queues of a control core from the one after a queue on, or all from the first. -/
def queuesAfter (k : Nat) (q : Option Nat) : List Nat :=
  let from' := (q.map fun q => (q / 4 + 1) % 64).getD 0
  (List.range 64).map fun i => (from' + i) % 64 * 4 + k

/-- The queue that a control core takes at a packet boundary: among its queues with a packet, the highest QPRIO, in
rotation among those of that QPRIO. (DESIGN CHOICE: log 57) -/
def State.pickQueue (s : State) (k : Nat) : Option Nat :=
  let can := (queuesAfter k none).filter fun q => (s.hostq q).packetReady
  (maxBy (fun q => (s.hostq q).qprio) can).bind fun top =>
    let p := (s.hostq top).qprio
    (queuesAfter k (tget (s.ctlCore k).lastQ p)).find? fun q => can.contains q && (s.hostq q).qprio == p

/-- A control core has served a queue of a QPRIO: the rotation of that QPRIO goes on after it (R346). -/
def CtlCore.serve (c : CtlCore) (q prio : Nat) : CtlCore := { c with lastQ := tset c.lastQ prio q }

/-- KIND of a packet. -/
def Packet.kind (p : Packet) : Nat := bits (wordAt p.words 0) 7 0

/-- A servicing command runs (R377). -/
def State.servicing (s : State) (n : Nat) : Bool := s.package.svcBusy && s.package.svccmd == wd n

/-- The packet of a queue that its control core executes now; no new one is taken while the firmware is to be switched. -/
def State.packet (s : State) (q : Nat) : Option Packet :=
  let c := s.ctlCore (q % 4)
  match c.cur with
  | some x => if x = q then (s.hostq q).fetched.head? else none
  | none => if s.pickQueue (q % 4) = some q && !s.servicing 1 then (s.hostq q).fetched.head? else none

/-- A packet of a kind that its control core executes now. -/
def State.packetOf (s : State) (q kind : Nat) : Option Packet :=
  (s.packet q).filter fun p => !p.words.isEmpty && p.kind == kind

/-- The packet is in execution from now on. (DESIGN CHOICE: log 57) -/
def State.holdPacket (s : State) (q : Nat) : State :=
  s.updCtl (q % 4) fun c => { c.serve q (s.hostq q).qprio with cur := some q }

/-- The packet has executed: DONE rises (R346). -/
def State.donePacket (s : State) (q : Nat) : State :=
  (s.updHostq q fun h => { h with done := h.done + 1, fetched := h.fetched.drop 1, graph := none }).updCtl (q % 4)
    fun c => { c.serve q (s.hostq q).qprio with cur := none }

/-- A faulty packet stops its queue before it has any effect (R350); after an error of a read the record shows that error's
address (R364, R367). -/
def State.stopQueue (s : State) (q : Nat) (p : Packet) (fcode : Nat) (extra : Nat) : State :=
  let h := s.hostq q
  let s := s.engineRecord h.ctx 0 0 0 (BitVec.ofNat 5 fcode) true false ((p.flaw.map Prod.snd).getD (h.packetAddr p.num.toNat)) extra
  (s.updHostq q fun h => { h with stopped := true, fcode := fcode, fetched := [], graph := none }).updCtl (q % 4)
    fun c => { c.serve q (s.hostq q).qprio with cur := none }

/-- A packet whose table or card cannot be read stops its queue: PROTECTION, or the error of the read (R350, R364, R367). -/
def State.stopRead (s : State) (q : Nat) (p : Packet) (a : Word) (n : Nat) : State :=
  let ctx := (s.hostq q).ctx
  let f := s.agentFlaw ctx a false n
  (s.agentTouch ctx a false n).stopQueue q { p with flaw := f } ((f.map fun x => x.1.toNat).getD 0x0D) 0

/-- Fields of a packet of a kind that must be zero (R347). -/
def packetUnused (kind : Nat) : List (Nat × Nat × Nat) :=
  let from' := fun n => (List.range (8 - n)).map fun i => (n + i, 63, 0)
  (0, 63, 8) :: match kind with
    | 1 => (2, 63, 5) :: from' 3
    | 2 => (2, 63, 13) :: from' 3
    | 3 | 4 => (1, 63, 16) :: from' 3
    | 5 => from' 3
    | _ => from' 1

/-- The fault of a packet that its words alone show: FCODE and EXTRA. -/
def State.packetFault (s : State) (q : Nat) (p : Packet) : Option (Nat × Nat) :=
  let w := wordAt p.words
  let ctx := (s.hostq q).ctx
  if p.words.isEmpty then some ((p.flaw.map fun x => x.1.toNat).getD 0x0D, 0)
  else match reservedAt p.words (packetUnused p.kind) with
    | some (i, b) => some (0x03, extraAt i b)
    | none =>
      match p.kind with
      | 0 | 1 | 6 => none
      | 2 => if (w 1).toNat % 16 ≠ 0 ∨ bits (w 2) 12 0 = 0 ∨ 4096 < bits (w 2) 12 0 then some (0x13, 0xF2) else none
      | 3 => if s.namesEctx ctx (w 1).toNat then none else some (0x13, 0xF2)
      | 4 => if s.namesEctx ctx (w 1).toNat && (w 1).toNat / 4096 == 4 then none else some (0x13, 0xF2)
      | 5 => if (w 2).toNat % 64 ≠ 0 then some (0x13, 0xF2) else none
      | _ => some (0x13, 0xF1)

/-- A packet of a kind runs: a faulty one stops its queue, any other does `act`, which answers the state and whether it
has executed. -/
def State.runPacket (s : State) (q kind : Nat) (act : State → Packet → State × Bool) : Host.Outcome State Fault Refusal :=
  match s.packetOf q kind with
  | none => .next s
  | some p =>
    match s.packetFault q p with
    | some (c, e) => .next (s.stopQueue q p c e)
    | none =>
      let r := act (s.holdPacket q) p
      .next (if r.2 then r.1.donePacket q else r.1)

/-- PACKET_NOP (R347): at once. A packet that cannot be read and one of a reserved kind stop their queue here. -/
def execPacketNop (q : Nat) (s : State) : Host.Outcome State Fault Refusal :=
  match s.packet q with
  | none => .next s
  | some p =>
    if p.words.isEmpty || p.kind = 0 || 6 < p.kind then
      match s.packetFault q p with
      | some (c, e) => .next (s.stopQueue q p c e)
      | none => .next ((s.holdPacket q).donePacket q)
    else .next s

/-- A card of a queue's context goes to acceptance: its address breaks R187, which acceptance finds first (R190), or
it can be read; any other stops the queue (R350). (DESIGN CHOICE: log 24) -/
def State.cardReads (s : State) (ctx : Nat) (a : Word) : Bool :=
  (s.cardAddrBad ctx a).isSome || (s.agentRead ctx a false 128).isSome

/-- A card is accepted for a queue, and counts among its earlier cards (R349). -/
def State.acceptFor (s : State) (q : Nat) (a : Word) (cluster : Nat) : State × Bool :=
  match s.accept (s.hostq q).ctx a .launch cluster id with
  | (s, .ok c) | (s, .failed c) => (s.updHostq q fun h => { h with cards := h.cards ++ [c] }, true)
  | (s, .unreadable) => (s, true)
  | (_, .wait) => (s, false)

/-- LAUNCH (R347): one card is accepted and journaled. -/
def execLaunch (q : Nat) (s : State) : Host.Outcome State Fault Refusal :=
  s.runPacket q 1 fun s p =>
    if s.cardReads (s.hostq q).ctx (wordAt p.words 1) then s.acceptFor q (wordAt p.words 1) (bits (wordAt p.words 2) 4 0)
    else (s.stopRead q p (wordAt p.words 1) 128, false)

/-- The root cards of a snapshot are accepted from an entry on, in order, until acceptance waits (R348 step 3). -/
def State.acceptRoots (s : State) (q : Nat) (ws : List Word) : Nat → Nat → State × Bool
  | 0, _ => (s, true)
  | n + 1, i =>
    if bits (wordAt ws (2 * i + 1)) 15 0 = 0 then
      match s.acceptFor q (wordAt ws (2 * i)) 0 with
      | (s, true) => s.acceptRoots q ws n (i + 1)
      | (s, false) => (s.updHostq q fun h => { h with graph := some (ws, i) }, false)
    else s.acceptRoots q ws n (i + 1)

/-- PRED and STATUS of every card of a snapshot are written (R348 step 1). -/
def State.presetCards (s : State) (ctx : Nat) (ws : List Word) (n : Nat) : State :=
  (List.range n).foldl (fun s i =>
    let a := wordAt ws (2 * i)
    let s := (s.agentWrite ctx (a + 48) false (leBytes 2 (bits (wordAt ws (2 * i + 1)) 15 0))).getD s
    s.cardWrite ctx a 11 0) s

/-- GRAPH (R348). -/
def execGraph (q : Nat) (s : State) : Host.Outcome State Fault Refusal :=
  s.runPacket q 2 fun s p =>
    let ctx := (s.hostq q).ctx
    let n := bits (wordAt p.words 2) 12 0
    match (s.hostq q).graph with
    | some (ws, i) => s.acceptRoots q ws (n - i) i
    | none =>
      match s.agentRead ctx (wordAt p.words 1) false (16 * n) with
      | none => (s.stopRead q p (wordAt p.words 1) (16 * n), false)
      | some bs =>
        let s := s.agentTouch ctx (wordAt p.words 1) false (16 * n)
        let ws := leWords (2 * n) bs
        let bad := reservedAt ws ((List.range n).map fun i => (2 * i + 1, 63, 16))
        match bad with
        | some (i, b) => (s.stopQueue q p 0x03 (extraAt (i % 256) b), false)
        | none =>
          if (List.range n).all fun i => s.cardReads ctx (wordAt ws (2 * i)) then
            (s.presetCards ctx ws n).acceptRoots q ws n 0
          else (s.stopQueue q p 0x0D 0, false)

/-- WAIT (R347): the timeline reaches the value. -/
def execWait (q : Nat) (s : State) : Host.Outcome State Fault Refusal :=
  s.runPacket q 3 fun s p =>
    (s, decide ((wordAt p.words 2).toNat ≤ (s.timeline (s.hostq q).ctx (wordAt p.words 1).toNat).toNat))

/-- SIGNAL (R347): an event timeline is raised. -/
def execSignal (q : Nat) (s : State) : Host.Outcome State Fault Refusal :=
  s.runPacket q 4 fun s p =>
    (s.raiseTimeline (s.hostq q).ctx (wordAt p.words 1).toNat (wordAt p.words 2), true)

/-- The places in memory of a range of global addresses of a context, as its pages are mapped. -/
def State.flushPlaces (s : State) (ctx a n : Nat) : List (Nat × Nat) :=
  (pageParts a (n / 4096 + 2) 0 n).filterMap fun p =>
    match s.agentPlace ctx (wd (a + p.1)) .none' with
    | .ok x _ _ _ => some (x, p.2)
    | _ => none

/-- A write of a context to an address lies in a range that FLUSH names: by the address, where the context is the
queue's own, or by the places of both. -/
def inFlush (own : Bool) (a n : Nat) (range : List (Nat × Nat)) (va len : Nat) (places : List (Nat × Nat)) : Bool :=
  (own && rangesMeet va len a n) || places.any fun p => range.any fun q => rangesMeet p.1 p.2 q.1 q.2

/-- The addresses that a command of a team's queue is to write, with their lengths: the units of an `mst` (R227). -/
def BEntry.targets (e : BEntry) : List (Word × Nat) :=
  match e.cmd with
  | .mst _ b =>
    let d := e.desc 0
    (storeUnits d (bits b 63 32) (bits b 31 0)).flatMap fun u =>
      let ix := [bits b 31 0 + u.2, bits b 63 32 + u.1]
      if dDxb d then [(blockAddr d ix, dBlock d), (pairAddr d ix, 2)] else [(elemAddr d ix, fmtBytes (dFmt d))]
  | _ => []

/-- A team's queued `mst` or ray is to write into a range that FLUSH names. -/
def State.teamFlushed (s : State) (t : Team) (ctx a n : Nat) (range : List (Nat × Nat)) : Bool :=
  let own := decide (t.ctx = ctx)
  t.bruin.cmds.any (fun e => e.loading && e.wnum.isSome || e.targets.any fun w =>
      inFlush own a n range w.1.toNat w.2 (match (s.engPlaces t.bruinEng w.1 w.2 true).2 with | .ok ps => ps | .error _ => []))
    || t.rays.rays.any fun r =>
      inFlush own a n range (r.addr + 40).toNat 8 (match r.place with | some p => [(p + 40, 8)] | none => [])

/-- A write of a chain or of a binner's ring that an access has stopped (R294) lies in a range that FLUSH names.
(DESIGN CHOICE: log 57) -/
def State.chainFlushed (s : State) (ctx a n : Nat) (range : List (Nat × Nat)) : Bool :=
  s.ctxs.any fun x => (List.range 68).any fun ch =>
    (s.chain x.1 ch).run.any fun r => r.todo.any fun w =>
      inFlush (decide (x.1 = ctx)) a n range w.1.toNat w.2.length
        (match (s.engPlaces (s.chainEng x.1 ch []) w.1 w.2.length true).2 with | .ok ps => ps | .error _ => [])

/-- A device write to a range of a context is not complete (R347): an access in flight, a queued `mst`, a ray, a write of a
chain or a binner that has stopped. (DESIGN CHOICE: log 57) -/
def State.flushWaits (s : State) (ctx a n : Nat) : Bool :=
  let range := s.flushPlaces ctx a n
  s.ops.any (fun o => o.2.isStore &&
      (o.2.pieces.any (fun p => inFlush (decide (o.2.ctx = ctx)) a n range p.va.toNat p.len []) || inFlush false a n range 0 0 (s.spots o.2)))
    || s.teams.any (fun t => !t.2.gone && s.teamFlushed t.2 ctx a n range) || s.chainFlushed ctx a n range

/-- FLUSH (R347): the device writes to the range are complete; there is no cached copy to clear. -/
def execFlush (q : Nat) (s : State) : Host.Outcome State Fault Refusal :=
  s.runPacket q 5 fun s p =>
    let a := (wordAt p.words 1).toNat
    let n := (wordAt p.words 2).toNat
    (s, n == 0 || !s.flushWaits (s.hostq q).ctx a n)

/-- FETCHFENCE (R349): every card of earlier packets has retired; later packets are discarded and fetched again. -/
def execFetchfence (q : Nat) (s : State) : Host.Outcome State Fault Refusal :=
  s.runPacket q 6 fun s _ =>
    if (s.hostq q).cards.any fun c => (tget s.cards c).isSome then (s, false)
    else (s.updHostq q fun h => { h with cards := [], fetched := h.fetched.take 1 }, true)

/-- The packet that a control core executes now can do something: it is not in execution yet, or its wait is over. -/
def State.packetMoves (s : State) (q : Nat) : Bool :=
  match s.packet q with
  | none => false
  | some p =>
    !s.inExecution q ||
      match p.kind with
      | 1 | 2 => s.journalFree
      | 3 => (wordAt p.words 2).toNat ≤ (s.timeline (s.hostq q).ctx (wordAt p.words 1).toNat).toNat
      | 5 => (wordAt p.words 2).toNat == 0 || !s.flushWaits (s.hostq q).ctx (wordAt p.words 1).toNat (wordAt p.words 2).toNat
      | 6 => !(s.hostq q).cards.any fun c => (tget s.cards c).isSome
      | _ => true

end Sys2Proof.Machine
end

