-- ==== Sys2Proof/Machine/ControlCore.lean ====
section
/-! DEFINITION. The control cores: the control extension and its exceptions (R351), entered as RISC-V lays down (log 21). -/

namespace Sys2Proof.Machine

/-- The control core whose instruction is executed: the lowest whose turn it is. -/
def State.ctlTurn (s : State) : Option Nat := (s.ctl.find? fun p => p.2.turn).map Prod.fst

/-- Register `i` of a control core; x0 reads as zero. -/
def CtlCore.reg (c : CtlCore) (i : BitVec 5) : Word := if i = 0 then 0 else vget c.x i.toNat 0

/-- A register of a control core is written; x0 stays zero. -/
def CtlCore.setReg (c : CtlCore) (i : BitVec 5) (w : Word) : CtlCore :=
  if i = 0 then c else { c with x := vset c.x i.toNat w }

/-- An exception of a control core: the pc and the cause are saved, interrupts are off, and the handler's base is next.
(PRESUMED: log 21) -/
def CtlCore.trap (c : CtlCore) (cause val : Word) : CtlCore :=
  let st := c.mstatus.toNat
  let mie := st / 8 % 2
  let st := st - st / 8 % 2 * 8 - st / 128 % 2 * 128 - st / 2048 % 4 * 2048 + mie * 128 + 3 * 2048
  { c with mepc := c.pc, mcause := cause, mtval := val, mstatus := wd st, pc := wd (c.mtvec.toNat / 4 * 4) }

/-- The instruction is over: the next one is at pc + 4. -/
def CtlCore.advance (c : CtlCore) : CtlCore := { c with pc := c.pc + 4 }

/-- An instruction of a control core runs: what comes of the core and the device; the core's turn is over. -/
def State.ctlRun (s : State) (act : Nat → CtlCore → State → State) : Host.Outcome State Fault Refusal :=
  match s.ctlTurn with
  | none => .next s
  | some k => .next (act k (s.ctlCore k) (s.updCtl k fun c => { c with turn := false }))

/-- The core takes an exception. (PRESUMED: log 21) -/
def State.ctlTrap (s : State) (k : Nat) (cause : Nat) (val : Word) : State := s.updCtl k fun c => c.trap (wd cause) val

/-- A register is written and the core goes on. -/
def State.ctlWrite (s : State) (k : Nat) (d : BitVec 5) (w : Word) : State := s.updCtl k fun c => (c.setReg d w).advance

/-- CX_RFETCH (R351): the packet that stands first in the queue's prefetch buffer. (DEDUCED: log 58) -/
def execCxRfetch (a d : BitVec 5) (s : State) : Host.Outcome State Fault Refusal :=
  s.ctlRun fun k c s =>
    let q := (c.reg a).toNat
    if 255 < q ∨ q % 4 ≠ k then s.ctlTrap k 24 (c.reg a)
    else match (s.hostq q).fetched with
      | [] => s.ctlWrite k d 0xFFFFFFFFFFFFFFFF#64
      | p :: _ => (s.updCtl k fun c => { c with packet := p.words, fetchQ := q }).ctlWrite k d p.num

/-- CX_BFX (R351). -/
def execCxBfx (b a d : BitVec 5) (s : State) : Host.Outcome State Fault Refusal :=
  s.ctlRun fun k c s =>
    let y := c.reg b
    let pos := bits y 5 0
    let len := bits y 13 8
    if len = 0 ∨ 64 < pos + len ∨ bits y 7 6 ≠ 0 ∨ bits y 63 14 ≠ 0 then s.ctlTrap k 25 y
    else s.ctlWrite k d (wd (bits (c.reg a) (pos + len - 1) pos))

/-- The context on whose behalf a control core acts: that of the queue whose packet it has fetched. (DEDUCED: log 58) -/
def State.ctlCtx (s : State) (c : CtlCore) : Nat := (s.hostq c.fetchQ).ctx

/-- CX_SWAIT (R351): it stalls until the timeline reaches the value. -/
def execCxSwait (b a d : BitVec 5) (s : State) : Host.Outcome State Fault Refusal :=
  s.ctlRun fun k c s =>
    let n := c.reg a
    let ctx := s.ctlCtx c
    if 2 ^ 16 ≤ n.toNat || !s.namesEctx ctx n.toNat then s.ctlTrap k 26 n
    else
      let t := s.timeline ctx n.toNat
      if t.toNat < (c.reg b).toNat then s else s.ctlWrite k d t

/-- CX_DISP (R351): a card is accepted as LAUNCH accepts it; a card that takes no journal number gives a free value.
(DEDUCED: log 58) -/
def execCxDisp (a d : BitVec 5) (s : State) : Host.Outcome State Fault Refusal :=
  s.ctlRun fun k c s =>
    let x := c.reg a
    let ctx := s.ctlCtx c
    if (s.cardAddrBad ctx x).isSome then s.ctlTrap k 27 x
    else
      match s.accept ctx x .launch (bits (wordAt c.packet 2) 4 0) id with
      | (_, .wait) => s
      | (t, .ok id) => t.ctlWrite k d (wd (((tget t.cards id).bind Card.journal).getD 0))
      | (t, _) => t.useFree.ctlWrite k d (Config.noJournal t.freeCtr)

/-- The word at a control core's pc. (PRESUMED: log 21) -/
def CtlCore.fetch (c : CtlCore) : Option IWord := tget c.code c.pc.toNat

/-- A custom-0 word that is no instruction of the extension: illegal instruction, cause 2. (PRESUMED: log 21) -/
def State.ctlIllegal (s : State) (k : Nat) (w : IWord) : State :=
  (s.updCtl k fun c => { c with turn := false }).ctlTrap k 2 (Config.illegalMtval w)

end Sys2Proof.Machine
end

