-- ==== Sys2Proof/Machine/Integer.lean ====
section
/-! DEFINITION. Integer, logic, bit-field, address and move instructions, comparisons and predicate logic
(R79 to R86, R88), `wid` (R32), `cvta` and `isap` (R115, R116), `mort` (R319) and `nop` (R34). -/

namespace Sys2Proof.Machine

/-! ### Operands at their type (R13, R56, R78) -/

/-- Width of an integer type. -/
def tyBits (t : BitVec 2) : Nat := if t.toNat < 2 then 32 else 64

/-- An integer type is signed. -/
def tySigned (t : BitVec 2) : Bool := t.toNat % 2 == 0

/-- A source at its type (R13). -/
def intOf (n : Nat) (signed : Bool) (x : Word) : Int := if signed then sgn n x.toNat else ((x.toNat % 2 ^ n : Nat) : Int)

/-- ABS then NEG of source `i`, modulo 2^n (R78). -/
def intMod (m : Mods) (i n : Nat) (signed : Bool) (x : Word) : Int :=
  let z := intOf n signed x
  let z := if m.abs / 2 ^ i % 2 == 1 then intOf n signed (wi z.natAbs) else z
  if m.neg / 2 ^ i % 2 == 1 then intOf n signed (wi (-z)) else z

/-- An exact result brought to the type: reduced modulo 2^n, or clamped under `.sat` (R56). -/
def intSat (sat : Bool) (n : Nat) (signed : Bool) (e : Int) : Int :=
  if sat then
    let lo : Int := if signed then -(2 ^ (n - 1)) else 0
    let hi : Int := if signed then 2 ^ (n - 1) - 1 else 2 ^ n - 1
    if e < lo then lo else if hi < e then hi else e
  else e

/-- A result placed in 64 bits (R13). -/
def intPlace (n : Nat) (signed : Bool) (e : Int) : Word := wi (intOf n signed (wi e))

/-- An integer operation of two sources at a type. -/
def intOp2 (t : BitVec 2) (op : Int → Int → Int) (l : Lane) : Word :=
  let n := tyBits t
  let s := tySigned t
  intPlace n s (intSat l.mods.sat n s (op (intMod l.mods 0 n s (l.src 0)) (intMod l.mods 1 n s (l.src 1))))

/-- The form of a two-source integer instruction. -/
def formR (g : BitVec 3) (d : BitVec 6) (a b : BitVec 7) : Form := { guard := g, srcs := [(0, a), (1, b)], dst := some d }

/-- The form of a one-source instruction. -/
def formU (g : BitVec 3) (d : BitVec 6) (a : BitVec 7) : Form := { guard := g, srcs := [(0, a)], dst := some d }

/-- The form of a three-source instruction: result to the queue (R35). -/
def formR3 (g : BitVec 3) (a b c : BitVec 7) : Form := { guard := g, srcs := [(0, a), (1, b), (2, c)], dst := some 0 }

/-- NEG and ABS masks of signed types (R77). -/
def signedMods (t : BitVec 2) (m : Nat) : Nat := if tySigned t then m else 0

/-- IADD (R80). -/
def execIadd (g : BitVec 3) (d : BitVec 6) (a b : BitVec 7) (t : BitVec 2) (s : State) : Host.Outcome State Fault Refusal :=
  { formR g d a b with mods := mSat + signedMods t mAB }.value (intOp2 t (· + ·)) s

/-- ISUB (R80). -/
def execIsub (g : BitVec 3) (d : BitVec 6) (a b : BitVec 7) (t : BitVec 2) (s : State) : Host.Outcome State Fault Refusal :=
  { formR g d a b with mods := mSat + signedMods t mAB }.value (intOp2 t (· - ·)) s

/-- IMUL (R80). -/
def execImul (g : BitVec 3) (d : BitVec 6) (a b : BitVec 7) (t : BitVec 2) (s : State) : Host.Outcome State Fault Refusal :=
  { formR g d a b with mods := mSat + signedMods t mAB }.value (intOp2 t (· * ·)) s

/-- IMULH (R80): floor(x × y / 2^n). -/
def execImulh (g : BitVec 3) (d : BitVec 6) (a b : BitVec 7) (t : BitVec 2) (s : State) : Host.Outcome State Fault Refusal :=
  { formR g d a b with mods := signedMods t mAB }.value (intOp2 t fun x y => (x * y).fdiv (2 ^ tyBits t)) s

/-- IMAD (R80): x × y + z, one reduction or clamp at the end. -/
def execImad (g : BitVec 3) (a b c : BitVec 7) (t : BitVec 1) (s : State) : Host.Outcome State Fault Refusal :=
  let n := if t.toNat == 0 then 32 else 64
  { formR3 g a b c with mods := mSat + mABC }.value (fun l =>
    intPlace n true (intSat l.mods.sat n true
      (intMod l.mods 0 n true (l.src 0) * intMod l.mods 1 n true (l.src 1) + intMod l.mods 2 n true (l.src 2)))) s

/-- IMIN (R80). -/
def execImin (g : BitVec 3) (d : BitVec 6) (a b : BitVec 7) (t : BitVec 2) (s : State) : Host.Outcome State Fault Refusal :=
  { formR g d a b with mods := signedMods t mAB }.value (intOp2 t fun x y => if y < x then y else x) s

/-- IMAX (R80). -/
def execImax (g : BitVec 3) (d : BitVec 6) (a b : BitVec 7) (t : BitVec 2) (s : State) : Host.Outcome State Fault Refusal :=
  { formR g d a b with mods := signedMods t mAB }.value (intOp2 t fun x y => if x < y then y else x) s

/-- IABS (R80). -/
def execIabs (g : BitVec 3) (d : BitVec 6) (a : BitVec 7) (t : BitVec 2) (s : State) : Host.Outcome State Fault Refusal :=
  { formU g d a with mods := mSat }.value (fun l =>
    let n := tyBits t
    let sg := tySigned t
    intPlace n sg (intSat l.mods.sat n sg ((intOf n sg (l.src 0)).natAbs : Int))) s

/-- IADDI (R80): x + sext64(imm9), as `.s64`. -/
def execIaddi (g : BitVec 3) (d : BitVec 6) (a : BitVec 7) (imm : BitVec 9) (s : State) : Host.Outcome State Fault Refusal :=
  { formU g d a with mods := mSat + mA }.value (fun l =>
    intPlace 64 true (intSat l.mods.sat 64 true (intMod l.mods 0 64 true (l.src 0) + sgn 9 imm.toNat))) s

/-! ### Logic, shifts and bit counts (R81) -/

/-- Width of a bitwise type of two bits. -/
def bBits (t : BitVec 1) : Nat := if t.toNat == 0 then 32 else 64

/-- A bitwise operation on the low n bits of two sources, the rest written as zero (R13). -/
def bitOp2 (t : BitVec 1) (op : Nat → Nat → Nat → Nat) (l : Lane) : Word :=
  let n := bBits t
  wd (op n ((l.src 0).toNat % 2 ^ n) ((l.src 1).toNat % 2 ^ n) % 2 ^ n)

/-- A bitwise operation on the low n bits of one source. -/
def bitOp1 (t : BitVec 1) (op : Nat → Nat → Nat) (l : Lane) : Word :=
  let n := bBits t
  wd (op n ((l.src 0).toNat % 2 ^ n) % 2 ^ n)

/-- Arithmetic right shift of an n-bit value. -/
def sarNat (n x c : Nat) : Nat :=
  (wi ((sgn n x).fdiv (2 ^ min c n))).toNat % 2 ^ n

/-- Left rotation of an n-bit value. -/
def rotNat (n x c : Nat) : Nat := (x * 2 ^ (c % n) + x / 2 ^ (n - c % n)) % 2 ^ n

/-- Leading zero bits of an n-bit value. -/
def clzNat (n x : Nat) : Nat := if x = 0 then n else n - 1 - log2 n x

/-- The n low bits of a value in reverse order. -/
def brevNat : Nat → Nat → Nat
  | 0, _ => 0
  | n + 1, x => x % 2 * 2 ^ n + brevNat n (x / 2)

/-- AND (R81). -/
def execAnd (g : BitVec 3) (d : BitVec 6) (a b : BitVec 7) (t : BitVec 1) (s : State) : Host.Outcome State Fault Refusal :=
  (formR g d a b).value (bitOp2 t fun _ x y => x &&& y) s

/-- OR (R81). -/
def execOr (g : BitVec 3) (d : BitVec 6) (a b : BitVec 7) (t : BitVec 1) (s : State) : Host.Outcome State Fault Refusal :=
  (formR g d a b).value (bitOp2 t fun _ x y => x ||| y) s

/-- XOR (R81). -/
def execXor (g : BitVec 3) (d : BitVec 6) (a b : BitVec 7) (t : BitVec 1) (s : State) : Host.Outcome State Fault Refusal :=
  (formR g d a b).value (bitOp2 t fun _ x y => x ^^^ y) s

/-- ANDN (R81): x AND NOT y. -/
def execAndn (g : BitVec 3) (d : BitVec 6) (a b : BitVec 7) (t : BitVec 1) (s : State) : Host.Outcome State Fault Refusal :=
  (formR g d a b).value (bitOp2 t fun n x y => x &&& (2 ^ n - 1 - y)) s

/-- SHL (R81). -/
def execShl (g : BitVec 3) (d : BitVec 6) (a b : BitVec 7) (t : BitVec 1) (s : State) : Host.Outcome State Fault Refusal :=
  (formR g d a b).value (bitOp2 t fun n x c => if n ≤ c then 0 else x * 2 ^ c) s

/-- SHR (R81). -/
def execShr (g : BitVec 3) (d : BitVec 6) (a b : BitVec 7) (t : BitVec 1) (s : State) : Host.Outcome State Fault Refusal :=
  (formR g d a b).value (bitOp2 t fun n x c => if n ≤ c then 0 else x / 2 ^ c) s

/-- SAR (R81). -/
def execSar (g : BitVec 3) (d : BitVec 6) (a b : BitVec 7) (t : BitVec 1) (s : State) : Host.Outcome State Fault Refusal :=
  (formR g d a b).value (bitOp2 t sarNat) s

/-- ROT (R81). -/
def execRot (g : BitVec 3) (d : BitVec 6) (a b : BitVec 7) (t : BitVec 1) (s : State) : Host.Outcome State Fault Refusal :=
  (formR g d a b).value (bitOp2 t rotNat) s

/-- POPC (R81). -/
def execPopc (g : BitVec 3) (d : BitVec 6) (a : BitVec 7) (t : BitVec 1) (s : State) : Host.Outcome State Fault Refusal :=
  (formU g d a).value (bitOp1 t popCount) s

/-- CLZ (R81). -/
def execClz (g : BitVec 3) (d : BitVec 6) (a : BitVec 7) (t : BitVec 1) (s : State) : Host.Outcome State Fault Refusal :=
  (formU g d a).value (bitOp1 t clzNat) s

/-- CTZ (R81). -/
def execCtz (g : BitVec 3) (d : BitVec 6) (a : BitVec 7) (t : BitVec 1) (s : State) : Host.Outcome State Fault Refusal :=
  (formU g d a).value (bitOp1 t lowBit) s

/-- BREV (R81). -/
def execBrev (g : BitVec 3) (d : BitVec 6) (a : BitVec 7) (t : BitVec 1) (s : State) : Host.Outcome State Fault Refusal :=
  (formU g d a).value (bitOp1 t brevNat) s

/-! ### Bit fields (R82, R83) -/

/-- BFE's field: bits of x from `pos` on, `len` of them, bits beyond n read as copies of the sign or zero (R82). -/
def bfeVal (n : Nat) (signed : Bool) (x pos len : Nat) : Int :=
  let len := min len n
  let f := (wi ((intOf n signed (wd x)).fdiv (2 ^ pos))).toNat % 2 ^ len
  if len = 0 then 0 else if signed then sgn len f else (f : Int)

/-- BFE (R82). -/
def execBfe (g : BitVec 3) (d : BitVec 6) (a b : BitVec 7) (t : BitVec 2) (s : State) : Host.Outcome State Fault Refusal :=
  (formR g d a b).value (fun l =>
    let n := tyBits t
    let sg := tySigned t
    intPlace n sg (bfeVal n sg ((l.src 0).toNat % 2 ^ n) (bits (l.src 1) 7 0) (bits (l.src 1) 15 8))) s

/-- BFI's result: y with bits pos to pos + len − 1 replaced by the low bits of x, bits beyond n − 1 dropped (R83). -/
def bfiVal (n x y pos len : Nat) : Nat :=
  let len := min len n
  let mask := (2 ^ len - 1) * 2 ^ pos % 2 ^ n
  (y &&& (2 ^ n - 1 - mask)) ||| (x * 2 ^ pos % 2 ^ n &&& mask)

/-- BFI (R83). -/
def execBfi (g : BitVec 3) (a b c : BitVec 7) (t : BitVec 1) (s : State) : Host.Outcome State Fault Refusal :=
  (formR3 g a b c).value (fun l =>
    let n := bBits t
    wd (bfiVal n ((l.src 0).toNat % 2 ^ n) ((l.src 1).toNat % 2 ^ n) (bits (l.src 2) 7 0) (bits (l.src 2) 15 8))) s

/-! ### Addresses and moves (R84, R85, R32, R115, R116) -/

/-- LEA (R84). -/
def execLea (g : BitVec 3) (d : BitVec 6) (a b : BitVec 7) (t : BitVec 2) (s : State) : Host.Outcome State Fault Refusal :=
  (formR g d a b).value (fun l => l.src 0 + l.src 1 * wd (2 ^ t.toNat)) s

/-- MOV (R85). -/
def execMov (g : BitVec 3) (d : BitVec 6) (a : BitVec 7) (t : BitVec 1) (s : State) : Host.Outcome State Fault Refusal :=
  (formU g d a).value (bitOp1 t fun _ x => x) s

/-- MOVI (R85). -/
def execMovi (g : BitVec 3) (d : BitVec 6) (imm : BitVec 9) (s : State) : Host.Outcome State Fault Refusal :=
  { guard := g, dst := some d : Form }.value (fun _ => sx imm) s

/-- Sum of the first `n` WID field widths (R29). -/
def fwSum (h : Header) (n : Nat) : Nat := (h.fw.take n).foldl (· + ·) 0

/-- The part of a WID that `wid` extracts (R32). -/
def widPart (t : Team) (w : Word) (sub : Nat) : Word :=
  if sub ≤ 5 then wd (w.toNat / 2 ^ fwSum t.hdr sub % 2 ^ (t.hdr.fw.getD sub 0))
  else if sub = 8 then w
  else if sub = 9 then w - t.base
  else wd (w.toNat / 2 ^ fwSum t.hdr t.hdr.tb)

/-- WID (R32). -/
def execWid (g : BitVec 3) (d : BitVec 6) (sw : BitVec 7) (s : State) : Host.Outcome State Fault Refusal :=
  let n := sw.toNat
  { guard := g, dst := some d, illegal := !(n ≤ 5 || n == 8 || n == 9 || n == 10) : Form }.value
    (fun l => widPart l.team l.thread.wid n) s

/-- The window and its base that a form of `cvta` names (R115). -/
def cvtaWindow (c : CtxSt) (sub : Nat) : Window × Word :=
  match sub % 4 with
  | 0 => (.loc, c.locbase)
  | 1 => (.shared, c.shrbase)
  | _ => (.cluster, c.clubase)

/-- CVTA's result (R115): a window offset widened to an address, or an address narrowed. -/
def cvtaVal (c : CtxSt) (sub : Nat) (a : Word) : Word :=
  if sub < 4 then (if a.toNat < 2 ^ 32 then (cvtaWindow c sub).2 + a else 0xFFFFFFFFFFFFFFFF#64)
  else
    match (c.window a).filter fun q => decide (q.1 = (cvtaWindow c sub).1) with
    | some q => wd q.2
    | none => 0xFFFFFFFFFFFFFFFF#64

/-- CVTA (R115). -/
def execCvta (g : BitVec 3) (d : BitVec 6) (a : BitVec 7) (sw : BitVec 7) (s : State) : Host.Outcome State Fault Refusal :=
  let n := sw.toNat
  { formU g d a with illegal := n == 3 || 6 < n }.run
    (fun l s => .ok s [(d, .known (cvtaVal (s.ctx l.team.ctx) n (l.src 0)))]) s

/-- ISAP (R116). -/
def execIsap (g : BitVec 3) (k p : BitVec 3) (a : BitVec 7) (s : State) : Host.Outcome State Fault Refusal :=
  { guard := g, srcs := [(0, a)], illegal := k == 7 || p == 0 : Form }.run (fun l s =>
    let b := isapCond (s.ctx l.team.ctx) (l.team.allocSegs * 4096) k (l.src 0)
    .ok (s.updThread l.sid fun th =>
      { th with preds := if b then th.preds ||| BitVec.ofNat 8 (2 ^ p.toNat)
                         else th.preds &&& ~~~(BitVec.ofNat 8 (2 ^ p.toNat)) }) []) s

/-! ### Comparisons and predicates (R86, R88) -/

/-- ICMP (R86). -/
def execIcmp (g : BitVec 3) (k p : BitVec 3) (a b : BitVec 7) (t : BitVec 2) (s : State) : Host.Outcome State Fault Refusal :=
  { guard := g, srcs := [(0, a), (1, b)], illegal := k == 7 || p == 0, mods := signedMods t mAB : Form }.pred p (fun l =>
    let n := tyBits t
    let sg := tySigned t
    icmpCond k n (intMod l.mods 0 n sg (l.src 0)) (intMod l.mods 1 n sg (l.src 1))) s

/-- PLOP (R88). -/
def execPlop (g : BitVec 3) (d a b : BitVec 3) (lut : BitVec 4) (s : State) : Host.Outcome State Fault Refusal :=
  { guard := g, illegal := d == 0 : Form }.pred d (fun l => plopCond lut (l.thread.pred a) (l.thread.pred b)) s

/-- NOP (R34): it takes an issue slot and leaves all state but the PC unchanged. -/
def execNop (s : State) : Host.Outcome State Fault Refusal := { guard := 0 : Form }.run (fun _ s => .ok s []) s

/-! ### Build helpers (R319) -/

/-- Ten bits spread to every third bit. -/
def spread3 : Nat → Nat → Nat
  | 0, _ => 0
  | n + 1, x => x % 2 + 8 * spread3 n (x / 2)

end Sys2Proof.Machine
end

