-- ==== Sys2Proof/Machine/Float.lean ====
section
/-! DEFINITION. Floating-point arithmetic, comparisons, special functions, conversions and the DXB pack instructions
(R87, R89 to R97), and the build helpers `mort` and `bbu` (R319). -/

namespace Sys2Proof.Machine

/-! ### Elements of a float type (R43, R58) -/

/-- The element format of a float type. -/
def tyFmt (t : Nat) : FFmt := match t with | 0 => f32 | 1 => f64 | 2 => f16 | _ => bf16

/-- A packed type. -/
def tyPacked (t : Nat) : Bool := 2 ≤ t

/-- Operand `i` of an instruction, as the format reads it: flushed, then ABS and NEG (R60, R78). -/
def fltMod (f : FFmt) (m : Mods) (i x : Nat) : Nat :=
  let x := x % 2 ^ f.width
  let x := if m.ftz then f.flush x else x
  f.absNeg (m.abs / 2 ^ i % 2 == 1) (m.neg / 2 ^ i % 2 == 1) x

/-- An operation on the elements of the sources of a float type; `op` gives the pattern after rounding (R58). -/
def fltOp (t : Nat) (l : Lane) (op : FFmt → List Nat → Nat) : Word :=
  let f := tyFmt t
  let el := fun sh => f.finish l.mods.ftz l.mods.sat
    (op f (l.w.zipIdx.map fun p => fltMod f l.mods p.2 (p.1.toNat / 2 ^ sh)))
  wd (if tyPacked t then el 0 + el 16 * 65536 else el 0)

/-- Source `i` of an operation's element. -/
def elAt (xs : List Nat) (i : Nat) : Nat := xs.getD i 0

/-- The exact sum of two elements, rounded (R89). -/
def fltAdd (rnd : Nat) (f : FFmt) (x y : Num) : Nat := f.encode rnd (Num.add (rnd == 3) x y)

/-- FADD (R89). -/
def execFadd (g : BitVec 3) (d : BitVec 6) (a b : BitVec 7) (t : BitVec 2) (s : State) : Host.Outcome State Fault Refusal :=
  { formR g d a b with mods := mRnd + mSat + mFtz + mAB }.value (fun l =>
    fltOp t.toNat l fun f xs => fltAdd l.mods.rnd f (f.decode (elAt xs 0)) (f.decode (elAt xs 1))) s

/-- FSUB (R89). -/
def execFsub (g : BitVec 3) (d : BitVec 6) (a b : BitVec 7) (t : BitVec 2) (s : State) : Host.Outcome State Fault Refusal :=
  { formR g d a b with mods := mRnd + mSat + mFtz + mAB }.value (fun l =>
    fltOp t.toNat l fun f xs => fltAdd l.mods.rnd f (f.decode (elAt xs 0)) (f.decode (elAt xs 1)).neg) s

/-- FMUL (R89). -/
def execFmul (g : BitVec 3) (d : BitVec 6) (a b : BitVec 7) (t : BitVec 2) (s : State) : Host.Outcome State Fault Refusal :=
  { formR g d a b with mods := mRnd + mSat + mFtz + mAB }.value (fun l =>
    fltOp t.toNat l fun f xs => f.encode l.mods.rnd (Num.mul (f.decode (elAt xs 0)) (f.decode (elAt xs 1)))) s

/-- x × y + z of elements, rounded once (R72, R89). -/
def fltFma (rnd : Nat) (f : FFmt) (xs : List Nat) : Nat :=
  fltAdd rnd f (Num.mul (f.decode (elAt xs 0)) (f.decode (elAt xs 1))) (f.decode (elAt xs 2))

/-- FFMA (R89). -/
def execFfma (g : BitVec 3) (a b c : BitVec 7) (t : BitVec 1) (s : State) : Host.Outcome State Fault Refusal :=
  { formR3 g a b c with mods := mRnd + mSat + mFtz + mABC }.value (fun l => fltOp t.toNat l (fltFma l.mods.rnd)) s

/-- HFMA2 (R89). -/
def execHfma2 (g : BitVec 3) (a b c : BitVec 7) (t : BitVec 1) (s : State) : Host.Outcome State Fault Refusal :=
  { formR3 g a b c with mods := mRnd + mSat + mFtz + mABC }.value (fun l => fltOp (2 + t.toNat) l (fltFma l.mods.rnd)) s

/-- The smaller or larger of two elements: NaN gives way, −0 lies below +0 (R61). -/
def fltPick (max : Bool) (f : FFmt) (x y : Nat) : Nat :=
  if f.isNan x then (if f.isNan y then f.nanBits else y)
  else if f.isNan y then x
  else
    let c := Num.cmp (f.decode x) (f.decode y)
    let below := c < 0 || (c == 0 && f.sign x)
    if below == max then y else x

/-- FMIN (R89, R61). -/
def execFmin (g : BitVec 3) (d : BitVec 6) (a b : BitVec 7) (t : BitVec 2) (s : State) : Host.Outcome State Fault Refusal :=
  { formR g d a b with mods := mFtz + mAB }.value (fun l =>
    fltOp t.toNat l fun f xs => fltPick false f (elAt xs 0) (elAt xs 1)) s

/-- FMAX (R89, R61). -/
def execFmax (g : BitVec 3) (d : BitVec 6) (a b : BitVec 7) (t : BitVec 2) (s : State) : Host.Outcome State Fault Refusal :=
  { formR g d a b with mods := mFtz + mAB }.value (fun l =>
    fltOp t.toNat l fun f xs => fltPick true f (elAt xs 0) (elAt xs 1)) s

/-- The condition of `fcmp` on two elements (R87). -/
def fcmpCond (k : BitVec 3) (f : FFmt) (x y : Nat) : Bool :=
  let nan := f.isNan x || f.isNan y
  let c := Num.cmp (f.decode x) (f.decode y)
  match k.toNat with
  | 0 => !nan && c == 0
  | 1 => nan || c != 0
  | 2 => !nan && c < 0
  | 3 => !nan && c ≤ 0
  | 4 => !nan && 0 < c
  | 5 => !nan && 0 ≤ c
  | 6 => !nan
  | _ => nan

/-- FCMP (R87): both elements must meet the condition. -/
def execFcmp (g : BitVec 3) (k p : BitVec 3) (a b : BitVec 7) (t : BitVec 2) (s : State) : Host.Outcome State Fault Refusal :=
  { guard := g, srcs := [(0, a), (1, b)], illegal := p == 0, mods := mFtz + mAB : Form }.pred p (fun l =>
    let f := tyFmt t.toNat
    let el := fun sh => fcmpCond k f (fltMod f l.mods 0 ((l.src 0).toNat / 2 ^ sh)) (fltMod f l.mods 1 ((l.src 1).toNat / 2 ^ sh))
    el 0 && (!tyPacked t.toNat || el 16)) s

/-- A pattern rounded to an integral value of its own format, the sign kept (R89). -/
def fltIntegral (rnd : Nat) (f : FFmt) (x : Nat) : Nat :=
  match f.decode x with
  | .fin neg m e => f.round rnd neg (roundTo rnd neg m e 0 false) 0 false
  | n => f.encode rnd n

/-- FRND (R89). -/
def execFrnd (g : BitVec 3) (d : BitVec 6) (a : BitVec 7) (t : BitVec 2) (s : State) : Host.Outcome State Fault Refusal :=
  { formU g d a with mods := mRnd + mFtz + mA }.value (fun l =>
    fltOp t.toNat l fun f xs => fltIntegral l.mods.rnd f (elAt xs 0)) s

/-! ### Special functions (R90 to R92) -/

/-- The special functions. -/
inductive Fn where
  | rcp
  | rsq
  | sqrt
  | ex2
  | lg2
  | sin
  | cos
  | tanh
deriving DecidableEq, Repr

/-- The result of a special function on a pattern, rounded to the format: the table of R92, then that of R91. -/
def Fn.apply (fn : Fn) (f : FFmt) (rnd x : Nat) : Nat :=
  match f.decode x with
  | .nan => f.nanBits
  | .inf neg =>
    match fn with
    | .rcp => f.withSign neg 0
    | .rsq => if neg then f.nanBits else 0
    | .sqrt | .lg2 => if neg then f.nanBits else f.infBits
    | .ex2 => if neg then 0 else f.infBits
    | .sin | .cos => f.nanBits
    | .tanh => f.withSign neg f.oneBits
  | .fin neg m e =>
    if m = 0 then
      match fn with
      | .rcp | .rsq => f.withSign neg f.infBits
      | .sqrt | .sin | .tanh => f.withSign neg 0
      | .ex2 | .cos => f.oneBits
      | .lg2 => f.withSign true f.infBits
    else
      match fn with
      | .rcp => f.recip rnd neg m e
      | .rsq => if neg then f.nanBits else f.rsqrt 0 m e
      | .sqrt => if neg then f.nanBits else f.sqrt rnd m e
      | .ex2 => f.exp2 neg m e
      | .lg2 => if neg then f.nanBits else f.log2' m e
      | .sin => f.sin neg m e
      | .cos => f.cos neg m e
      | .tanh => f.tanh neg m e

/-- The five functions of a packed type: widen exactly, apply the `.f32` function, round to the element (R91). -/
def Fn.viaF32 (fn : Fn) (f : FFmt) (x : Nat) : Nat := f.encode 0 (f32.decode (fn.apply f32 0 (f32.encode 0 (f.decode x))))

/-- FRCP (R90 to R92). -/
def execFrcp (g : BitVec 3) (d : BitVec 6) (a : BitVec 7) (t : BitVec 2) (s : State) : Host.Outcome State Fault Refusal :=
  { formU g d a with mods := mRnd + mSat + mFtz + mA }.value (fun l =>
    fltOp t.toNat l fun f xs => Fn.apply .rcp f l.mods.rnd (elAt xs 0)) s

/-- FRSQ (R90 to R92). -/
def execFrsq (g : BitVec 3) (d : BitVec 6) (a : BitVec 7) (t : BitVec 2) (s : State) : Host.Outcome State Fault Refusal :=
  { formU g d a with mods := mSat + mFtz + mA }.value (fun l => fltOp t.toNat l fun f xs => Fn.apply .rsq f 0 (elAt xs 0)) s

/-- FSQRT (R90 to R92). -/
def execFsqrt (g : BitVec 3) (d : BitVec 6) (a : BitVec 7) (t : BitVec 2) (s : State) : Host.Outcome State Fault Refusal :=
  { formU g d a with mods := mRnd + mSat + mFtz + mA }.value (fun l =>
    fltOp t.toNat l fun f xs => Fn.apply .sqrt f l.mods.rnd (elAt xs 0)) s

/-- A function of `.f32` and the packed types. -/
def Fn.trans (fn : Fn) (t : BitVec 2) (l : Lane) : Word := fltOp t.toNat l fun f xs => fn.viaF32 f (elAt xs 0)

/-- FEX2 (R90 to R92). -/
def execFex2 (g : BitVec 3) (d : BitVec 6) (a : BitVec 7) (t : BitVec 2) (s : State) : Host.Outcome State Fault Refusal :=
  { formU g d a with illegal := t == 1, mods := mSat + mFtz + mA }.value (Fn.trans .ex2 t) s

/-- FLG2 (R90 to R92). -/
def execFlg2 (g : BitVec 3) (d : BitVec 6) (a : BitVec 7) (t : BitVec 2) (s : State) : Host.Outcome State Fault Refusal :=
  { formU g d a with illegal := t == 1, mods := mSat + mFtz + mA }.value (Fn.trans .lg2 t) s

/-- FSIN (R90 to R92). -/
def execFsin (g : BitVec 3) (d : BitVec 6) (a : BitVec 7) (t : BitVec 2) (s : State) : Host.Outcome State Fault Refusal :=
  { formU g d a with illegal := t == 1, mods := mSat + mFtz + mA }.value (Fn.trans .sin t) s

/-- FCOS (R90 to R92). -/
def execFcos (g : BitVec 3) (d : BitVec 6) (a : BitVec 7) (t : BitVec 2) (s : State) : Host.Outcome State Fault Refusal :=
  { formU g d a with illegal := t == 1, mods := mSat + mFtz + mA }.value (Fn.trans .cos t) s

/-- FTANH (R90 to R92). -/
def execFtanh (g : BitVec 3) (d : BitVec 6) (a : BitVec 7) (t : BitVec 2) (s : State) : Host.Outcome State Fault Refusal :=
  { formU g d a with illegal := t == 1, mods := mSat + mFtz + mA }.value (Fn.trans .tanh t) s

/-! ### Conversions (R93 to R95) -/

/-- Float format of a conversion code (R93). -/
def cvtFmt (c : Nat) : FFmt := match c with | 4 => f16 | 5 => bf16 | 6 => f32 | _ => f64

/-- Width of a conversion code's integer format. -/
def cvtBits (c : Nat) : Nat := if c < 2 then 32 else 64

/-- An integer clamped to a range of `n` bits. -/
def intClamp (n : Nat) (signed : Bool) (z : Int) : Int := intSat true n signed z

/-- The value that a scalar conversion reads, or its pattern as a float (R94, R78). -/
def cvtRead (m : Mods) (src : Nat) (x : Word) : Num :=
  if src < 4 then Num.ofInt (intMod m 0 (cvtBits src) (src % 2 == 0) x)
  else (cvtFmt src).decode (fltMod (cvtFmt src) m 0 x.toNat)

/-- A scalar conversion (R63, R94). -/
def cvtVal (m : Mods) (dst src : Nat) (x : Word) : Word :=
  let v := cvtRead m src x
  if 4 ≤ dst then wd ((cvtFmt dst).finish m.ftz m.sat ((cvtFmt dst).encode m.rnd v))
  else
    let n := cvtBits dst
    let sg := dst % 2 == 0
    let big : Int := 2 ^ 200
    match v with
    | .nan => 0
    | .inf neg => intPlace n sg (intClamp n sg (if neg then -big else big))
    | v =>
      let z := (v.toInt m.rnd).getD 0
      intPlace n sg (if src < 4 then intSat m.sat n sg z else intClamp n sg z)

/-- CVT (R93, R94). -/
def execCvt (g : BitVec 3) (d : BitVec 6) (a : BitVec 7) (x y : BitVec 3) (s : State) : Host.Outcome State Fault Refusal :=
  let flt := 4 ≤ x.toNat || 4 ≤ y.toNat
  let num := 4 ≤ y.toNat || y.toNat % 2 == 0
  { formU g d a with
    illegal := x == y, mods := mSat + (if flt then mRnd + mFtz else 0) + (if num then mA else 0) }.value
    (fun l => cvtVal l.mods x.toNat y.toNat (l.src 0)) s

/-! ### DXB across the group (R95 to R97) -/

/-- The result that the thread of a lane gets from a block (R96). -/
def dxbResult (q : Nat × Nat × List Nat) (lane : Nat) : Word := wd (q.2.1 * 65536 + q.1 * 256 + q.2.2.getD lane 0)

/-- The block that the contributing lanes form: lanes without one supply +0.0 (R95, R96). -/
def dxbBlock (f : FFmt) (peers : List (Nat × List Word)) : List Num :=
  (List.range 32).map fun i =>
    match peers.find? fun p => sidLane p.1 == i with
    | some p => f.decode ((wordAt p.2 0).toNat % 2 ^ f.width)
    | none => .fin false 0 0

/-- CVT to DXB (R95). -/
def execCvtDxb (g : BitVec 3) (d : BitVec 6) (a : BitVec 7) (f : BitVec 1) (sw : BitVec 2) (s : State) :
    Host.Outcome State Fault Refusal :=
  let eight := f.toNat == 0
  { formU g d a with illegal := sw == 3, collective := true }.value (fun l =>
    dxbResult (dxbQuantise eight (if eight then 4 else 2) (dxbBlock (cvtFmt (4 + sw.toNat)) l.peers)) (sidLane l.sid)) s

/-- QPK (R96): the split is that of the lowest contributing lane. -/
def execQpk (g : BitVec 3) (d : BitVec 6) (a b : BitVec 7) (t : BitVec 1) (s : State) : Host.Outcome State Fault Refusal :=
  { formR g d a b with collective := true }.value (fun l =>
    let k := match l.peers with | [] => 0 | p :: _ => (wordAt p.2 1).toNat % 16
    dxbResult (dxbQuantise (t.toNat == 0) k (dxbBlock f32 l.peers)) (sidLane l.sid)) s

/-- QUPK (R97). -/
def execQupk (g : BitVec 3) (d : BitVec 6) (a b : BitVec 7) (t : BitVec 1) (s : State) : Host.Outcome State Fault Refusal :=
  (formR g d a b).value (fun l =>
    let eight := t.toNat == 0
    let el := (l.src 0).toNat % (if eight then 256 else 16)
    wd (f32.encode 0 (dxbValue eight el (bits (l.src 1) 15 8) (bits (l.src 1) 23 16)))) s

/-! ### Build helpers (R319) -/

/-- A coordinate quantised to ten bits. -/
def mortQuant (x : Nat) : Nat :=
  match f32.decode x with
  | .nan => 0
  | .inf neg => if neg then 0 else 1023
  | .fin neg m e => if neg then 0 else min (roundTo 1 false m (e + 10) 0 false) 1023

/-- MORT (R319). -/
def execMort (g : BitVec 3) (d : BitVec 6) (a b : BitVec 7) (s : State) : Host.Outcome State Fault Refusal :=
  (formR g d a b).value (fun l =>
    let q := fun x => spread3 10 (mortQuant x)
    wd (q (bits (l.src 0) 31 0) * 4 + q (bits (l.src 0) 63 32) * 2 + q (bits (l.src 1) 31 0))) s

/-- BBU (R319). -/
def execBbu (g : BitVec 3) (d : BitVec 6) (a b : BitVec 7) (s : State) : Host.Outcome State Fault Refusal :=
  (formR g d a b).value (fun l =>
    wd (fltPick true f32 (bits (l.src 0) 63 32) (bits (l.src 1) 63 32) * 2 ^ 32
      + fltPick false f32 (bits (l.src 0) 31 0) (bits (l.src 1) 31 0))) s

end Sys2Proof.Machine
end

