-- ==== Sys2Proof/Machine/System.lean ====
section
/-! DEFINITION. System registers and `tlbi` (R264 to R266), the hint words (R45 to R49) and words that decode
to no instruction (R41). -/

namespace Sys2Proof.Machine

/-! ### Writes of the registers of R265 -/

/-- A context has a resident team, an open continuation record or a running engine context (R266). -/
def State.ctxBusy (s : State) (ctx : Nat) : Bool :=
  s.teams.any (fun p => p.2.ctx == ctx && !p.2.gone) || s.cards.any (fun p => p.2.ctx == ctx && p.2.records != 0)
    || (s.ctx ctx).chains.any (fun p => p.2.en) || (s.ctx ctx).binners.any (fun p => p.2.en)
    || s.streams.any fun p => p.2.ctx == ctx && p.2.state != 0

/-- A write that R266 allows only to an idle context: otherwise it is ignored and REJ is set. -/
def State.whenIdle (s : State) (ctx : Nat) (f : State → State) : State := if s.ctxBusy ctx then s.reject ctx else f s

/-- Contexts that a core's banks are assigned to. -/
def CoreSt.bankCtxs (c : CoreSt) : List Nat :=
  let b := c.bankctx.toNat
  (if b / 128 % 2 == 1 then [b % 64] else []) ++ (if b / 32768 % 2 == 1 then [b / 256 % 64] else [])

/-- A write of DQSPLIT (R265, R266): refused with REJ of the contexts named. `by'`: the context that writes it by `sysw`. -/
def State.writeDqsplit (s : State) (core : Nat) (w : Word) (rejs : List Nat) (by' : Option Nat) : State :=
  let c := s.core core
  let busy := s.teams.any fun p => p.2.core == core && !p.2.gone && c.bankCtxs.contains p.2.ctx
  let held := !(vget c.deque 0 []).isEmpty || !(vget c.deque 1 []).isEmpty
  if 512 < bits w 9 0 ∨ busy ∨ held ∨ by'.any s.ctxBusy then rejs.foldl (fun s x => s.reject x) s
  else s.updCore core fun c => { c with dqsplit := bits w 9 0 }

/-- A window base keeps its bits [55:32]. -/
def baseBits (w : Word) : Word := wd (bits w 55 32 * 2 ^ 32)

/-- A write of a context's own register of R265 by number. -/
def State.writeCtxReg (s : State) (ctx n : Nat) (w : Word) : State :=
  match n with
  | 0x03 => s.whenIdle ctx fun s => s.updCtx ctx fun c => { c with locbase := baseBits w }
  | 0x04 => s.whenIdle ctx fun s => s.updCtx ctx fun c => { c with shrbase := baseBits w }
  | 0x05 => s.whenIdle ctx fun s => s.updCtx ctx fun c => { c with clubase := baseBits w }
  | 0x06 => s.whenIdle ctx fun s => s.updCtx ctx fun c => { c with locsz := bits w 31 0 }
  | 0x07 => s.whenIdle ctx fun s => s.updCtx ctx fun c => { c with locpool := w }
  | 0x08 => s.whenIdle ctx fun s => s.updCtx ctx fun c => { c with ptroot := wd (bits w 55 16 * 2 ^ 16) }
  | 0x09 => s.whenIdle ctx fun s => s.updCtx ctx fun c => { c with tqbase := wd (bits w 63 13 * 2 ^ 13) }
  | 0x0A => s.writeTqhead ctx w
  | 0x0C => s.updCtx ctx fun c => { c with rej := c.rej && !bitAt w 3, tqovf := c.tqovf && !bitAt w 0 }
  | 0x13 => s.updCtx ctx fun c => { c with csave := wd (bits w 63 6 * 64) }
  | _ => s

/-- A write of CPBASE of a context in a cluster. -/
def State.writeCpbase (s : State) (ctx cl : Nat) (w : Word) : State :=
  s.whenIdle ctx fun s => s.updCluster cl fun c => { c with cpbase := tset c.cpbase ctx (wd (bits w 63 8 * 256)) }

/-- A write of CPN of a context in a cluster. (DESIGN CHOICE: log 70) -/
def State.writeCpn (s : State) (ctx cl : Nat) (w : Word) : State :=
  s.whenIdle ctx fun s => s.updCluster cl fun c => { c with cpn := tset c.cpn ctx (bits w 16 0) }

/-- A write of OWNREJ: write one to clear. -/
def State.writeOwnrej (s : State) (cl : Nat) (w : Word) : State :=
  s.updCluster cl fun c => { c with ownrej := c.ownrej && !bitAt w 0 }

/-- A write of a system register by a thread (R265, R266). -/
def State.writeSysReg (s : State) (ctx sid n : Nat) (w : Word) : State :=
  match n with
  | 0x0D => s.writeCpbase ctx (sidCluster sid) w
  | 0x0E => s.writeCpn ctx (sidCluster sid) w
  | 0x0F => s.writeDqsplit (sidCore sid) w [ctx] (some ctx)
  | 0x10 => s.writeOwnrej (sidCluster sid) w
  | _ => s.writeCtxReg ctx n w

/-- SYSR (R265). -/
def execSysr (g : BitVec 3) (d : BitVec 6) (n : BitVec 7) (s : State) : Host.Outcome State Fault Refusal :=
  { guard := g, dst := some d, illegal := 0x13 < n.toNat : Form }.run (fun l s =>
    .ok s [(d, .known (s.sysReg l.sid l.team n.toNat))]) s

/-- SYSW (R265, R266): privileged. -/
def execSysw (g : BitVec 3) (a n : BitVec 7) (s : State) : Host.Outcome State Fault Refusal :=
  { guard := g, srcs := [(0, a)], illegal := 0x13 < n.toNat, priv := true : Form }.run (fun l s =>
    .ok (s.writeSysReg l.team.ctx l.sid n.toNat (l.src 0)) []) s

/-! ### Invalidation (R264) -/

/-- A TLB entry is named by a `tlbi`: its page, its context, or all. -/
def TlbEntry.named (e : TlbEntry) (kind ctx va : Nat) : Bool :=
  match kind with
  | 0 => e.covers ctx va
  | 1 => e.ctx == ctx
  | _ => true

/-- A walker's entry is named likewise. -/
def WalkEntry.named (e : WalkEntry) (kind ctx va : Nat) : Bool :=
  match kind with
  | 0 => e.ctx == ctx && e.vpn == va / 2 ^ e.log
  | 1 => e.ctx == ctx
  | _ => true

/-- The named entries leave every TLB and walker of the device, and with INGR the ingress translator's. -/
def State.dropTlb (s : State) (kind ctx va : Nat) (ingr : Bool) : State :=
  let keep := fun es : List TlbEntry => es.filter fun e => !e.named kind ctx va
  let s := { s with clusters := tmap s.clusters fun _ c =>
      { c with tlbMem := keep c.tlbMem, tlbMatrix := keep c.tlbMatrix, tlbCopy := keep c.tlbCopy, tlbFetch := keep c.tlbFetch,
               walks := c.walks.filter fun e => !e.named kind ctx va } }
  if ingr then { s with fabric := { s.fabric with tlb := keep s.fabric.tlb } } else s

/-- TLBI (R264): it drops the named entries, and then waits at issue for every access in flight that was translated with
one of them; what is translated afresh meanwhile is not waited for. (DEDUCED: log 13) -/
def execTlbi (g : BitVec 3) (a b : BitVec 7) (s : State) : Host.Outcome State Fault Refusal :=
  { guard := g, srcs := [(0, a), (1, b)], priv := true : Form }.run (fun l s =>
    let c := l.src 1
    let kind := bits c 1 0
    let ctx := bits c 15 10
    let va := bits (l.src 0) 55 0
    if bits c 63 16 ≠ 0 ∨ bits c 8 2 ≠ 0 ∨ kind = 3 then .fault (illegalOperand 1 b.toNat)
    else if l.thread.dropped then
      if s.ops.any fun p => p.2.awaited.contains l.sid then .hold
      else .ok (s.updThread l.sid fun th => { th with dropped := false }) []
    else if s.ops.any fun p => p.2.translatedBy kind ctx va then
      .send fun s =>
        let s := (s.dropTlb kind ctx va (bitAt c 9)).updThread l.sid fun th => { th with dropped := true }
        { s with ops := tmap s.ops fun _ o =>
            if o.translatedBy kind ctx va then { o with awaited := l.sid :: o.awaited } else o }
    else .ok (s.dropTlb kind ctx va (bitAt c 9)) []) s

/-! ### Hint words, words without a meaning -/

/-- A hint word by its instruction (R45). -/
def State.hint (s : State) (ix : Instr) : Host.Outcome State Fault Refusal :=
  match encode ix with
  | some w => s.gatherHint w
  | none => .next s

/-- HIMM (R46). -/
def execHimm (p : BitVec 22) (s : State) : Host.Outcome State Fault Refusal := s.hint (.himm p)

/-- HMOD (R47). -/
def execHmod (r : BitVec 2) (sat ftz : BitVec 1) (n a c : BitVec 3) (h : BitVec 2) (t : BitVec 1) (s : State) :
    Host.Outcome State Fault Refusal := s.hint (.hmod r sat ftz n a c h t)

/-- HSCH (R48). -/
def execHsch (y : BitVec 1) (d : BitVec 4) (s : State) : Host.Outcome State Fault Refusal := s.hint (.hsch y d)

/-- HDROP_LO (R49). -/
def execHdropLo (m : BitVec 16) (s : State) : Host.Outcome State Fault Refusal := s.hint (.hdropLo m)

/-- HDROP_HI (R49). -/
def execHdropHi (m : BitVec 16) (s : State) : Host.Outcome State Fault Refusal := s.hint (.hdropHi m)

/-- HDROP_X (R49). -/
def execHdropX (f c : BitVec 10) (s : State) : Host.Outcome State Fault Refusal := s.hint (.hdropX f c)

/-- ILLEGAL_OPCODE (R41, R42): a word that decodes to no instruction faults each on thread; a hint word of that kind joins
the run, and the fault is its consumer's (R44, R45). (DESIGN CHOICE: log 70) -/
def execIllegalOpcode (w : IWord) (s : State) : Host.Outcome State Fault Refusal :=
  if (decodeWord w).isSome then .next s
  else if w.toNat / 2 ^ 25 = 0x7F then s.gatherHint w
  else { guard := BitVec.ofNat 3 (w.toNat / 2 ^ 22), illegal := true : Form }.run (fun _ s => .ok s []) s

end Sys2Proof.Machine
end

