-- ==== Sys2Proof/Machine/Tasks.lean ====
section
/-! DEFINITION. Deques and continuations: `post`, `work`, `susp`, `done`, delivery and resumption (R198 to R207). -/

namespace Sys2Proof.Machine

/-! ### Deques (R198) -/

/-- Entries allotted to a bank's part of a core's deque. -/
def CoreSt.partSize (c : CoreSt) (bank : Nat) : Nat := if bank = 0 then c.dqsplit else 512 - c.dqsplit

/-- The parts of a context on a core that have room. (DEDUCED: log 28) -/
def CoreSt.roomy (c : CoreSt) (ctx : Nat) : List Nat :=
  (c.banksOf ctx).filter fun b => (vget c.deque b []).length < c.partSize b

/-- The blocked workers of a context in a cluster wake (R201). -/
def State.wakeWork (s : State) (cl ctx : Nat) : State :=
  (s.teams.filter fun p => p.2.ctx == ctx && p.2.core / 8 == cl && !p.2.gone).foldl (fun s p =>
    s.wakeTeam p.1 fun w => match w with | .work => true | _ => false) s

/-- A handle is added at the bottom of a context's part on a core: 0 added, 1 full, 2 no entry allotted (R200). -/
def State.addHandle (s : State) (ctx core : Nat) (h : Word) : State × Nat :=
  let c := s.core core
  if ((c.banksOf ctx).filter fun b => c.partSize b != 0).isEmpty then (s, 2)
  else
    match c.roomy ctx with
    | [] => (s, 1)
    | b :: _ =>
      let s := s.updCore core fun c => { c with deque := vset c.deque b (h :: vget c.deque b []) }
      (s.wakeWork (core / 8) ctx, 0)

/-- The target core of a `post`, by its word, for a caller on a core; none where the word breaks its layout. -/
def postTarget (g : Word) (core : Nat) : Option Nat :=
  if bits g 63 10 ≠ 0 then none
  else match bits g 9 8 with
    | 0 => if bits g 7 0 = 0 then some core else none
    | 1 => if bits g 7 3 = 0 then some (core / 8 * 8 + bits g 2 0) else none
    | 2 => if bits g 7 3 ≤ 23 then some (bits g 7 3 * 8 + bits g 2 0) else none
    | _ => none

/-- POST (R200). (DESIGN CHOICE: log 18) -/
def execPost (g : BitVec 3) (d : BitVec 6) (a b : BitVec 7) (s : State) : Host.Outcome State Fault Refusal :=
  { guard := g, srcs := [(0, a), (1, b)], dst := some d : Form }.run (fun l s =>
    let h := l.src 0
    match postTarget (l.src 1) (sidCore l.sid) with
    | none => .fault (illegalOperand 1 b.toNat)
    | some core =>
      if h.toNat / 2 ^ 56 ≠ 0 || ((s.ctx l.team.ctx).window h).isSome then .fault (protection h)
      else if h.toNat % 128 ≠ 0 then .fault (misaligned h)
      else if !(s.ctx l.team.ctx).part.getLsbD (core / 8) then .fault (protection 0)
      else if s.fenceWaits l.sid 3 then .hold
      else if core / 8 = sidCluster l.sid then
        let q := s.addHandle l.team.ctx core h
        .ok q.1 [(d, .known (wd q.2))]
      else
        let q := s.tokens 1
        let tok := q.2.headD 0
        let m : PostMsg := { ctx := l.team.ctx, sid := l.sid, tok := tok, handle := h, core := core }
        let s := { q.1.bump with posts := tset q.1.posts q.1.fresh m }
        .ok (s.owe l.sid l.pc [tok]) [(d, .pend tok)]) s

/-- REMOTE_POST (R200): the deque unit of the other cluster adds the handle and answers. (DEDUCED: log 32) -/
def execRemotePost (msg : Nat) (s : State) : Host.Outcome State Fault Refusal :=
  match tget s.posts msg with
  | none => .next s
  | some m =>
    let q := { s with posts := tdel s.posts msg }.addHandle m.ctx m.core m.handle
    .next (q.1.fillTok m.sid m.tok (wd q.2))

/-- The task that a thread on a core takes: its handle and the state without it (R201). (DEDUCED: log 28) -/
def State.takeTask (s : State) (ctx core : Nat) : Option (Word × State) :=
  let own := (s.core core).banksOf ctx
  match own.find? fun b => !(vget (s.core core).deque b []).isEmpty with
  | some b =>
    let q := vget (s.core core).deque b []
    some (q.headD 0, s.updCore core fun c => { c with deque := vset c.deque b (q.drop 1) })
  | none =>
    let others := (List.range 7).map fun i => core / 8 * 8 + (core + 1 + i) % 8
    let parts := others.flatMap fun c => ((s.core c).banksOf ctx).map fun b => (c, b)
    match parts.find? fun p => !(vget (s.core p.1).deque p.2 []).isEmpty with
    | none => none
    | some (c, b) =>
      let q := vget (s.core c).deque b []
      some (q.getLastD 0, s.updCore c fun k => { k with deque := vset k.deque b q.dropLast })

/-! ### Resumption (R206) -/

/-- The open card that a record belongs to. -/
def State.recordCard (s : State) (ctx : Nat) (ws : List Word) : Option Nat :=
  (s.cards.find? fun p => p.2.ctx == ctx && p.2.addr == wordAt ws 3 && p.2.records != 0).map Prod.fst

/-- The slot that a record resumes in, from a core on: core, bank, slot, offset. A cluster out of service has none (R278).
(DESIGN CHOICE: log 50) -/
def State.resumeSlot (s : State) (ctx core lane f : Nat) : Option (Nat × Nat × Nat × Nat) :=
  if (s.cluster (core / 8)).down then none else
  let cores := (List.range 8).map fun i => core / 8 * 8 + (core + i) % 8
  let banks := cores.flatMap fun c => ((s.core c).banksOf ctx).map fun b => (c, b)
  (banks.filterMap fun p => (pickSlot (s.laneSlots p.1 p.2 lane) f).map fun q => (p.1, p.2, q.1, q.2)).head?

/-- The values of a record's saved words by their bit in the mask. -/
def savedWords (ws : List Word) : List (Nat × Word) :=
  let m := wordAt ws 4
  let on := (List.range 48).filter fun i => bitAt m i
  on.zipIdx.map fun p => (p.1, wordAt ws (16 + p.2))

/-- The thread that a record describes (R206). -/
def recordThread (h : Header) (team off : Nat) (ws : List Word) : Thread :=
  let t := Thread.fresh h team off (wordAt ws 1) (wordAt ws 2)
  let saved := savedWords ws
  let v := saved.foldl (fun v p => if p.1 < 32 then vset v p.1 (Val.known p.2) else v) t.v
  let q := saved.foldl (fun q p => if 32 ≤ p.1 then vset q (p.1 - 32) (Val.known p.2) else q) t.q
  let live := BitVec.ofNat 32 (bits (wordAt ws 4) 31 0) &&& ~~~(BitVec.ofNat 32 (bits (wordAt ws 8) 31 0))
  { t with v := v, q := q, vdead := ~~~live, preds := BitVec.ofNat 8 (bits (wordAt ws 0) 46 40 * 2) }

/-- The resumption team of a card, original team, core and bank, made at the first resumption. -/
def State.resumptionTeam (s : State) (c : Nat) (k : Card) (base : Word) (core bank : Nat) : State × Nat :=
  match s.teams.find? fun p => p.2.card == c && p.2.resumption == some base && p.2.core == core && p.2.bank == bank
      && !p.2.finished with
  | some p => (s, p.1)
  | none =>
    let u := uniforms k.args 0 k.id base s.ns
    let t := { Team.fresh k.ctx c core bank k.hdr u base 0 0 with resumption := some base }
    ({ s.bump with teams := tset s.teams s.fresh t }, s.fresh)

/-- A record is resumed in a free slot of its lane; none where there is no slot. A record that is no longer in state 3
(a discarded one is free, R207) resumes nothing. (DEDUCED: log 31) -/
def State.resume (s : State) (r : Resume) : Option State :=
  let cl := r.cluster
  let ws := s.readRecord cl r.ctx r.index
  match if recordState ws = 3 then s.recordCard r.ctx ws else none with
  | none => some s
  | some c =>
    match tget s.cards c with
    | none => some s
    | some k =>
      let lane := bits (wordAt ws 0) 51 47
      match s.resumeSlot r.ctx r.core lane (footprint k.hdr) with
      | none => none
      | some (core, bank, slot, off) =>
        let base := wd ((wordAt ws 2).toNat / 2 ^ k.hdr.teamBits * 2 ^ k.hdr.teamBits)
        let s := s.agentTouch r.ctx (s.recordAddr cl r.ctx r.index) false 256
        let q := s.resumptionTeam c k base core bank
        let sid := sidOf core bank lane slot
        let s := { q.1 with threads := tset q.1.threads sid (recordThread k.hdr q.2 off ws) }.touch sid
          (List.range 16 ++ ((savedWords ws).filter fun p : Nat × Word => p.1 < 32).map fun p : Nat × Word => 16 + p.1)
        let s := (s.setRecord cl r.ctx r.index 0).updCard c fun k => { k with records := k.records - 1 }
        some (s.fileThread sid (wordAt ws 1))

/-- The lane that a record resumes in. -/
def State.resumeLane (s : State) (r : Resume) : Nat := bits (wordAt (s.readRecord r.cluster r.ctx r.index) 0) 51 47

/-- An entry of a list waits for the same lane of the same context's banks: it comes first (R206). -/
def State.resumeBefore (s : State) (rs : List Resume) (r : Resume) : Bool :=
  rs.any fun x => x.ctx == r.ctx && s.resumeLane x == s.resumeLane r

/-- A continuation that `work` took is resumed, or waits in the cluster's resume list: for a slot, or for those that wait
for one of its lane before it (R206). -/
def State.resumeOrWait (s : State) (r : Resume) : State :=
  let wait := s.updCluster (r.core / 8) fun c => { c with resume := c.resume ++ [r] }
  if s.resumeBefore (s.cluster (r.core / 8)).resume r then wait else (s.resume r).getD wait

/-- The first record of a cluster's resume list, of the first of each lane, that has a slot now. (DESIGN CHOICE: log 27) -/
def State.resumable' (s : State) (cl : Nat) : Option Resume :=
  let rs := (s.cluster cl).resume
  (rs.zipIdx.find? fun r => !(s.ctx r.1.ctx).away && !s.resumeBefore (rs.take r.2) r.1 && (s.resume r.1).isSome).map Prod.fst

/-- CONTINUATION_RESUME (R206). -/
def execContinuationResume (cluster : Nat) (s : State) : Host.Outcome State Fault Refusal :=
  match s.resumable' cluster with
  | none => .next s
  | some r =>
    let s := s.updCluster cluster fun c => { c with resume := c.resume.erase r }
    .next ((s.resume r).getD s)

/-! ### Taking work (R201) -/

/-- A thread takes a task and starts it: a card is accepted, a continuation resumed. -/
def Lane.take (l : Lane) (s : State) (d : BitVec 6) (wait : Bool) : LaneOut :=
  let core := sidCore l.sid
  let cl := sidCluster l.sid
  match s.takeTask l.team.ctx core with
  | none => if wait then .block .work else .ok s [(d, .known 0)]
  | some (h, s) =>
    if bits h 63 56 = 0xFF then
      .ok (s.resumeOrWait { ctx := l.team.ctx, core := core, cluster := bits h 20 16, index := bits h 15 0 }) [(d, .known h)]
    else
      match s.accept l.team.ctx h .work cl fun k => { k with prefer := some core } with
      | (_, .wait) => .hold
      | (s, _) => .ok s [(d, .known h)]

/-- WORK (R201). -/
def execWork (g : BitVec 3) (d : BitVec 6) (s : State) : Host.Outcome State Fault Refusal :=
  { guard := g, dst := some d, windowBan := true : Form }.run (fun l s => l.take s d true) s

/-- WORK_TRY (R201). (DEDUCED: log 29) -/
def execWorkTry (g : BitVec 3) (d : BitVec 6) (s : State) : Host.Outcome State Fault Refusal :=
  { guard := g, dst := some d, windowBan := true : Form }.run (fun l s => l.take s d false) s

/-- DONE (R202): the first on lane of a team ends every thread of it. -/
def execDone (g : BitVec 3) (s : State) : Host.Outcome State Fault Refusal :=
  { guard := g : Form }.run (fun l s => .gone ((s.threadsOf l.tid).foldl (fun s sid => s.endThread sid) s)) s

/-! ### Suspension (R203, R204) -/

/-- The lowest free record of a pool. (DESIGN CHOICE: log 27) -/
def State.freeRecord (s : State) (cl ctx : Nat) : Option Nat :=
  findFrom (fun i => recordState (s.readRecord cl ctx i) == 0) (s.poolSize cl ctx) 0

/-- The value that bit `i` of a mask saves; a dead register has none that the spec gives. -/
def Thread.saved (th : Thread) (use i : Nat) : Word :=
  if i < 32 then if th.vdead.getLsbD i then Config.deadWord use i else (vget th.v i (.known 0)).word
  else (vget th.q (i - 32) (.known 0)).word

/-- A register or queue entry that a mask names is still pending. -/
def Thread.maskPends (th : Thread) (m : Word) : Bool :=
  (List.range 48).any fun i => bitAt m i &&
    (if i < 32 then !th.vdead.getLsbD i && (vget th.v i (.known 0)).isPend else (vget th.q (i - 32) (.known 0)).isPend)

/-- The 32 words of a record (R203). (DESIGN CHOICE: log 22) -/
def recordWords (ctx lane : Nat) (k : Card) (th : Thread) (pc : Word) (now : Bool) (ectx : Nat) (target m : Word)
    (ns use : Nat) : List Word :=
  let on := (List.range 48).filter fun i => bitAt m i
  let saved := on.map fun i => th.saved use i
  let prd := th.preds.toNat / 2
  let w0 := wd (ctx * 2 ^ 52 + lane * 2 ^ 47 + prd * 2 ^ 40 + flag now 39 + 2 ^ 32 + k.id.toNat)
  [w0, pc + 4, th.wid, k.addr, m, wd ectx, target, wd ns, m &&& th.vdead.setWidth 64] ++ List.replicate 7 0
    ++ saved ++ List.replicate (16 - saved.length) 0

/-- The words of a slot that a mask of saved registers names (R204). -/
def maskWords (m : Word) : List Nat := ((List.range 48).filter fun i => m.getLsbD i).map fun i => if i < 32 then 16 + i else i - 32

/-- A thread suspends: `tl` is the timeline of its condition, none for `susp.now`. (DESIGN CHOICE: log 27) -/
def Lane.suspend (l : Lane) (s : State) (tl : Option Nat) (n m : Word) (msel : BitVec 7) : LaneOut :=
  let cl := sidCluster l.sid
  let ctx := l.team.ctx
  let h := l.team.hdr
  if bits m 63 48 ≠ 0 || popCount 64 m.toNat > 16 || bits m 31 0 / 2 ^ h.nreg ≠ 0 then
    .fault (illegalOperand 1 msel.toNat)
  else if tl.any (fun i => !tlBound h i) then .fault (illegalOperand 3 (tl.getD 0))
  else if s.poolSize cl ctx = 0 then .fault (protection 0)
  else if l.thread.maskPends m then .hold
  else
    match s.freeRecord cl ctx, tget s.cards l.team.card with
    | none, _ => .block .pool
    | _, none => .hold
    | some i, some k =>
      if s.fenceWaits l.sid 3 then .hold
      else
        let ectx := match tl with | none => 0 | some t => if t < 2 then 0xFFFF else h.ectx.getD (t - 2) 0xFFFF
        let ws := recordWords ctx (sidLane l.sid) k l.thread l.pc tl.isNone ectx n m s.ns s.freeCtr
        match s.agentWrite ctx (s.recordAddr cl ctx i) false (ws.flatMap fun w => leBytes 8 w.toNat) with
        | none => .fault (protection (s.recordAddr cl ctx i))
        | some s =>
          let s := (s.touch l.sid (maskWords m)).useFree.updCard l.team.card fun k => { k with records := k.records + 1 }
          let s := match tl with
            | some t => if t < 2 then
                s.updCluster cl fun c => { c with ownTl := (ctx, i, l.tid, t) :: c.ownTl.filter fun q =>
                  !(q.1 == ctx && q.2.1 == i) } else s
            | none => s
          .gone (s.endThread l.sid)

/-- SUSP (R204). -/
def execSusp (g : BitVec 3) (k : BitVec 6) (a b : BitVec 7) (s : State) : Host.Outcome State Fault Refusal :=
  { guard := g, srcs := [(0, a), (1, b)], illegal := 15 < k.toNat, windowBan := true : Form }.run
    (fun l s => l.suspend s (some k.toNat) (l.src 0) (l.src 1) b) s

/-- SUSP_NOW (R204). (DEDUCED: log 29) -/
def execSuspNow (g : BitVec 3) (b : BitVec 7) (s : State) : Host.Outcome State Fault Refusal :=
  { guard := g, srcs := [(1, b)], windowBan := true : Form }.run (fun l s => l.suspend s none 0 (l.src 0) b) s

/-! ### Delivery (R205) -/

/-- The condition of a waiting record holds. -/
def State.recordMet (s : State) (cl ctx i : Nat) (ws : List Word) : Bool :=
  bitAt (wordAt ws 0) 39 ||
    match (s.cluster cl).ownTl.find? fun q => q.1 == ctx && q.2.1 == i && bits (wordAt ws 5) 15 0 == 0xFFFF with
    | some q => ((tget s.teams q.2.2.1).map fun t => decide ((wordAt ws 6).toNat ≤ (s.teamTimeline t q.2.2.2).toNat)).getD false
    | none => decide ((wordAt ws 6).toNat ≤ (s.timeline ctx (bits (wordAt ws 5) 15 0)).toNat)

/-- The part of a context with the fewest entries among a cluster's cores that has room: core and bank. -/
def State.emptiest (s : State) (cl ctx : Nat) : Option (Nat × Nat) :=
  let parts := (List.range 8).flatMap fun i => ((s.core (cl * 8 + i)).roomy ctx).map fun b => (cl * 8 + i, b)
  minBy (fun p => (vget (s.core p.1).deque p.2 []).length) parts

/-- A record of a context's pool that can become ready, or be delivered, now: the lowest index of each.
(DESIGN CHOICE: log 27) -/
def State.deliverable (s : State) (cl ctx : Nat) : Option (Nat × Bool) :=
  let n := s.poolSize cl ctx
  match findFrom (fun i => let ws := s.readRecord cl ctx i
                           recordState ws == 1 && s.recordMet cl ctx i ws) n 0 with
  | some i => some (i, false)
  | none =>
    if (s.emptiest cl ctx).isNone then none
    else (findFrom (fun i => recordState (s.readRecord cl ctx i) == 2) n 0).map fun i => (i, true)

/-- CONTINUATION_DELIVERY (R205): a waiting record whose condition holds becomes ready; when none does, the lowest ready
record goes to the emptiest part. -/
def execContinuationDelivery (ctx cluster : Nat) (s : State) : Host.Outcome State Fault Refusal :=
  if (s.ctx ctx).away || !s.cards.any (fun p => p.2.ctx == ctx && p.2.records != 0) then .next s
  else
    match s.deliverable cluster ctx with
    | none => .next s
    | some (i, false) => .next (s.setRecord cluster ctx i 2)
    | some (i, true) =>
      match s.emptiest cluster ctx with
      | none => .next s
      | some (core, b) =>
        let s := s.setRecord cluster ctx i 3
        let s := s.updCore core fun c => { c with deque := vset c.deque b (handleOf cluster i :: vget c.deque b []) }
        .next (s.wakeWork cluster ctx)

end Sys2Proof.Machine
end

