-- ==== Sys2Proof/Machine/Issue.lean ====
section
/-! DEFINITION. The core: draws of bins (R145, R147), the watchdog (R109), wakes (R135, R144), power blocks (R28, R151),
bank flips (R276), precise stops (R356 to R358), the fetch of a word (R99) and the choice of the group that issues (R148
to R150). -/

namespace Sys2Proof.Machine

/-! ### Bins (R145) -/

/-- The bins of a bank are tested: it may issue, the core is not stopped, its context not frozen (R271, R276, R357). -/
def State.drawable (s : State) (core bank : Nat) : Bool :=
  let c := s.core core
  c.bankOn bank && !s.stopHolds core && !((c.bankCtx bank).any fun x => (s.ctx x).frozen || (s.ctx x).away)
    && !s.replacing (core / 8)

/-- A bin is full or aged at a clock of its core. -/
def Bin.due (b : Bin) (now : Nat) : Bool :=
  decide (b.full ≤ (drawOf b).length) || decide (b.oldest + b.age ≤ now)

/-- The bins to draw at the end of a clock: bank and key, oldest filing clock first, then the lower key.
(DESIGN CHOICE: log 16) -/
def State.dueBins (s : State) (core : Nat) : List (Nat × Word) :=
  let bins := [0, 1].flatMap fun b =>
    if s.drawable core b then
      ((vget (s.core core).bins b []).filter fun x => x.due (s.coreClk core)).map fun x => (b, x)
    else []
  (sortBy (fun p : Nat × Bin => p.2.rank) bins).map fun p => (p.1, p.2.key)

/-- BIN_DRAW (R145): the tests at the end of a core's clock; every bin that is due is drawn once. (DEDUCED: log 9)
(DESIGN CHOICE: log 16) -/
def execBinDraw (core : Nat) (s : State) : Host.Outcome State Fault Refusal :=
  .next ((s.dueBins core).foldl (fun s p => s.drawBin core p.1 p.2) s)

/-- Parked groups of a bank enter the ready set as places free (R142). (DESIGN CHOICE: log 16) -/
def State.unpark (s : State) (core bank : Nat) : Nat → State
  | 0 => s
  | n + 1 =>
    match vget (s.core core).parked bank [] with
    | [] => s
    | g :: r =>
      if 512 ≤ s.readyCount core bank then s
      else
        let s := { s with groups := tupd s.groups g fun x => { x with parked := false } }.updCore core fun c =>
          { c with parked := vset c.parked bank r, rotation := c.rotation ++ [g] }
        s.unpark core bank n

/-! ### The watchdog (R109) -/

/-- A team's next word would bring its count above its budget. -/
def Team.spent (t : Team) : Bool := !t.frozen && t.hdr.budget != 0 && decide (t.hdr.budget ≤ t.issued)

/-- The first thread of a team in a group. -/
def State.firstOf (s : State) (g : Group) (tid : Nat) : Option Nat :=
  g.threads.find? fun sid => (tget s.threads sid).any fun th => th.team == tid

/-- WATCHDOG (R109): the group at the issue slot is about to issue a word that its team's budget refuses.
(DESIGN CHOICE: log 18) (DESIGN CHOICE: log 70) -/
def execWatchdog (team : Nat) (s : State) : Host.Outcome State Fault Refusal :=
  match (s.issuing.bind fun g => tget s.groups g), tget s.teams team with
  | some g, some t =>
    match s.firstOf g team with
    | none => .next s
    | some sid =>
      if t.spent then
        let saved := if g.run.isEmpty then g.pc else g.runPc
        .next (s.raise sid (freezeFault 0x16 (wd t.issued) 0) g.pc saved)
      else .next s
  | _, _ => .next s

/-- A team of a group whose next word its budget refuses. -/
def State.spentTeam (s : State) (g : Group) : Option Nat :=
  (g.threads.filterMap fun sid => (tget s.threads sid).map Thread.team).find? fun t => (tget s.teams t).any Team.spent

/-! ### Wakes (R135, R144) -/

/-- A result can be pushed: it goes to no hardware queue, or to one with room (R156). -/
def Team.canPush (t : Team) (d : BitVec 6) : Bool :=
  match dstW d with
  | none => true
  | some n => (t.queue n).init && decide ((t.queue n).entries.length < 2 ^ (t.queue n).logCap)

/-- The outcome of a `waitw` is pushed, and its thread refiled; a destination that its hint run dropped ends dead (R27). -/
def State.wakeWatch (s : State) (sid : Nat) (pc : Word) (d : BitVec 6) (r : Word) (dropped : Bool) : State :=
  let s := if r = 0 then s.updThread sid fun th => { th with watch := none } else s
  let s := (s.touch sid (dstWords d)).writeDst sid d (.known r)
  let s := if dropped then s.updThread sid fun th => { th with vdead := th.vdead ||| BitVec.ofNat 32 (2 ^ (d.toNat - 0x10)) } else s
  s.fileThread sid pc

/-- WAITW_TIMEOUT (R135): the watch stays armed. (DEDUCED: log 15) -/
def execWaitwTimeout (slot : Nat) (s : State) : Host.Outcome State Fault Refusal :=
  match tget s.threads slot, s.teamOf slot with
  | some th, some t =>
    match th.cond with
    | .blocked (.watch d (some lim) x) =>
      if lim ≤ s.ns && !(th.watch.any Watch.hit) && t.canPush d then .next (s.wakeWatch slot th.pc d 1 x) else .next s
    | _ => .next s
  | _, _ => .next s

/-- A blocked thread whose timeout has expired, and whose outcome can be pushed. -/
def State.timedOut (s : State) (p : Nat × Thread) : Bool :=
  match p.2.cond with
  | .blocked (.watch d (some lim) _) =>
    decide (lim ≤ s.ns) && !(p.2.watch.any Watch.hit) && (s.teamOf p.1).any fun t => t.canPush d
  | _ => false

/-- The condition of a blocked thread holds, apart from those that wake it at once (R156, R179, R201). -/
def State.wakes (s : State) (sid : Nat) (t : Team) : Wait → Bool
  | .timeline ix n => decide (n.toNat ≤ (s.teamTimeline t ix).toNat)
  | .pool => (s.freeRecord (sidCluster sid) t.ctx).isSome
  | .bruinPlace => !t.bruinFull
  | .issueLatch ix => ((vget t.cv ix { cnt := 0, sig := 0, armed := false, cmd := 0, latch := none }).latch).isNone
  | .rayPlace => decide (t.rays.rays.length < 256)
  | _ => false

/-- The wakes of a clock. (DESIGN CHOICE: log 16) -/
def State.wakeScan (s : State) : State :=
  (s.threads.map Prod.fst).foldl (fun s sid =>
    match tget s.threads sid, s.teamOf sid with
    | some th, some t =>
      match th.cond with
      | .blocked (.watch d _ x) => if th.watch.any Watch.hit && t.canPush d then s.wakeWatch sid th.pc d 0 x else s
      | .blocked w => if s.wakes sid t w then s.fileThread sid th.pc else s
      | _ => s
    | _, _ => s) s

/-! ### Power blocks (R28, R151) -/

/-- A power block idles: it is Full and has not been used for 512 clocks. -/
def idle512 (s : State) (e : Bool × Nat) : Bool := e.1 && decide (e.2 + 512 ≤ s.clk)

/-- REG_BLOCK_RETENTION (R28). -/
def execRegBlockRetention (core bank lane block : Nat) (s : State) : Host.Outcome State Fault Refusal :=
  let k := (bank * 32 + lane) * 12 + block
  match tget (s.core core).power k with
  | none => .next s
  | some e =>
    if idle512 s e && s.blockLive core bank lane block then
      .next (s.updCore core fun c => { c with power := tset c.power k (false, e.2) })
    else .next s

/-- SCRATCH_BANK_RETENTION (R151). -/
def execScratchBankRetention (cluster bank : Nat) (s : State) : Host.Outcome State Fault Refusal :=
  match tget (s.cluster cluster).banks bank with
  | none => .next s
  | some e =>
    if idle512 s e then .next (s.updCluster cluster fun c => { c with banks := tset c.banks bank (false, e.2) })
    else .next s

/-! ### Bank flips (R276) -/

/-- Every group of a core loses its latches (R18). -/
def State.dropCoreLatches (s : State) (core : Nat) : State :=
  (s.groups.filter fun g => g.2.core == core).foldl (fun s g => s.dropLatches g.2.threads) s

/-- A flip landing takes a bank out: its context's capture counts it (R361). -/
def State.countOut (s : State) (core bank : Nat) : State :=
  match (s.core core).bankCtx bank with
  | none => s
  | some x => if (s.ctx x).capturing then s.updCtx x fun c => { c with capSwaps := c.capSwaps + 1 } else s

/-- A requested flip may land: none is in progress, and no latch window, hint run or stop is open. (DESIGN CHOICE: log 17) -/
def CoreSt.mayLand (c : CoreSt) : Bool :=
  !c.flips.isEmpty && decide (c.flip = .idle) && c.holder.isNone && !c.stop.stopped

/-- BANK_FLIP_LAND (R276): a flip to the bank already in force completes at once, with no effect. (DESIGN CHOICE: log 17) -/
def execBankFlipLand (core : Nat) (s : State) : Host.Outcome State Fault Refusal :=
  let c := s.core core
  if !c.mayLand then .next s
  else
    let b := c.flips.headD 0
    let s := s.updCore core fun c => { c with flips := c.flips.drop 1 }
    if c.inForce = some b then .next s
    else
      let out := c.inForce.getD (1 - b)
      let s := (s.countOut core out).traceRec (core / 8) 2 (core % 8) (((s.core core).bankCtx b).getD 0)
        (wd (core % 8 + 8 * b))
      .next ((s.updCore core fun c => { c with flip := .landing b (s.clk + 32), lastGroup := none }).dropCoreLatches core)

/-- BANK_FLIP_ISSUABLE (R276). (DESIGN CHOICE: log 17) -/
def execBankFlipIssuable (core : Nat) (s : State) : Host.Outcome State Fault Refusal :=
  match (s.core core).flip with
  | .idle => .next s
  | .landing b t =>
    if t ≤ s.clk then
      let s := s.traceRec (core / 8) 2 (core % 8) (((s.core core).bankCtx b).getD 0) (wd (core % 8 + 8 * b + 16))
      .next (s.updCore core fun c => { c with flip := .idle, inForce := some b, turnFrom := s.ns })
    else .next s

/-- Length of a context's time slice in nanoseconds (R265, CTXCFG). -/
def CtxSt.sliceNs (c : CtxSt) : Nat := (if c.slice = 0 then 20 else c.slice) * 100000

/-- A bank of a core holds a thread that waits to issue. -/
def State.bankBusy (s : State) (core bank : Nat) : Bool :=
  !(vget (s.core core).bins bank []).isEmpty || (s.core core).rotation.any fun g => (tget s.groups g).any fun x => x.bank == bank

/-- The scheduler exchanges two contexts that share a core (R276): the other bank has work, and the bank in force has none
or its turn of one time slice is over. Banks of a context with an admitted stream are the Ringmaster's. (DESIGN
CHOICE: log 17) -/
def State.flipWanted (s : State) (core : Nat) : Option Nat :=
  let c := s.core core
  match c.inForce with
  | none => none
  | some b =>
    match c.bankCtx b, c.bankCtx (1 - b) with
    | some x, some y =>
      if x != y && decide (c.flip = .idle) && c.flips.isEmpty && s.bankBusy core (1 - b)
          && !(s.ctx y).away && !s.streams.any (fun p => p.2.state != 0 && (p.2.ctx == x || p.2.ctx == y))
          && (!s.bankBusy core b || decide (c.turnFrom + (s.ctx x).sliceNs ≤ s.ns))
      then some (1 - b) else none
    | _, _ => none

/-- HSCH_DELAY_END (R48, R149): the group is issuable again, with a mark of zero. -/
def execHschDelayEnd (group : Nat) (s : State) : Host.Outcome State Fault Refusal :=
  match tget s.groups group with
  | none => .next s
  | some g =>
    if g.delayUntil ≠ 0 ∧ g.delayUntil ≤ s.clk then
      .next (s.updGroup group fun g => { g with delayUntil := 0, mark := 0, wasReady := false })
    else .next s

/-! ### Precise stops (R356 to R358) -/

/-- PRECISE_STOP_REQUEST (R356): ignored while the core is stopped. -/
def execPreciseStopRequest (core : Nat) (s : State) : Host.Outcome State Fault Refusal :=
  if (s.core core).stop.stopped then .next s
  else .next (s.updCore core fun c => { c with stop := { c.stop with requested := true } })

/-- What an access in flight is to a dump: 0 load, 1 atomic, 2 texture (R358). -/
def MemAct.src : MemAct → Nat
  | .load _ | .descriptor _ _ => 0
  | .atomic _ _ _ _ _ => 1
  | .texture _ _ _ _ => 2
  | _ => 5

/-- SRC of a pending value (R358). -/
def State.pendSrc (s : State) (sid tok : Nat) : Nat :=
  match s.ops.find? fun p => p.2.sid == sid && p.2.tokens.contains tok with
  | some p => p.2.act.src
  | none =>
    match s.teamOf sid with
    | none => 5
    | some t =>
      if t.rays.rays.any fun r => r.sid == sid && r.tok == some tok then 3
      else if t.bruin.cmds.any fun e => e.sid == sid && e.tok == some tok then 4 else 5

/-- TGT and W1 of a pending value: the named register that it goes to, else a hardware queue, an x-file word, or its
place in the result queue; none once it has shifted out (R358). -/
def pendTgt (th : Thread) (t : Team) (tok : Nat) : Option (Nat × Nat) :=
  match th.v.toList.zipIdx.find? (fun p => p.1 == .pend tok) with
  | some p => some (0x10 + p.2, 0)
  | none =>
    match (List.range 8).find? fun n => (t.queue n).entries.any fun e => e.tok == some tok with
    | some n => some (0x30 + n, 0)
    | none =>
      match th.x.zipIdx.find? (fun p => p.1.val == .pend tok) with
      | some p => some (0x40, p.2)
      | none => (th.q.toList.zipIdx.find? fun p => p.1 == .pend tok).map fun p => (p.2, 0)

/-- One entry of a dump for a pending value. -/
def State.pendEntry (s : State) (sid : Nat) (th : Thread) (o : Nat × Word) : List (List Word) :=
  match (tget s.teams th.team).bind fun t => pendTgt th t o.1 with
  | none => []
  | some (tgt, ix) =>
    [[wd (2 * 2 ^ 60 + s.pendSrc sid o.1 * 2 ^ 28 + tgt * 2 ^ 20 + sidSlot sid * 2 ^ 14 + sidLane sid * 2 ^ 9
        + sidBank sid * 2 ^ 8), wd ix, o.2, 0]]

/-- One entry of a dump for a group. (DESIGN CHOICE: log 56) -/
def State.groupEntry (s : State) (g : Group) : List Word :=
  let lanes := g.threads.foldl (fun m sid => m + 2 ^ sidLane sid) 0
  let st := if g.parked then 3 else if s.clk < g.delayUntil then 2 else if g.wasReady then 0 else 1
  [wd (2 ^ 60 + g.bank * 2 ^ 8 + s.groupPrio g * 2 ^ 4), g.pc, wd (lanes + g.mark % 1024 * 2 ^ 32 + st * 2 ^ 42), 0]

/-- The words of a core's dump (R358). -/
def State.dumpWords (s : State) (core : Nat) : List Word :=
  let c := s.core core
  let groups := [0, 1].flatMap fun b =>
    ((c.rotation ++ vget c.parked b []).filterMap fun g => tget s.groups g).filter fun g => g.bank == b
  let ths := s.threads.filter fun p => sidCore p.1 == core
  let es := groups.map s.groupEntry ++ ths.flatMap fun p => p.2.owed.flatMap fun o => s.pendEntry p.1 p.2 o
  [0, wd s.ns, wd (s.lcyc (core / 8)), wd es.length] ++ es.flatten

/-- A stop of a core may take effect: `bkpt.stop` has stopped it, or it is at an instruction boundary outside a latch
window and a hint run. -/
def CoreSt.mayStop (c : CoreSt) : Bool := c.stop.requested && (c.stop.stopped || c.holder.isNone)

/-- PRECISE_STOP (R356 to R358): the core stops, the STOP record is written, and the dump when its area can be written.
(DESIGN CHOICE: log 56) -/
def execPreciseStop (core : Nat) (s : State) : Host.Outcome State Fault Refusal :=
  let c := s.core core
  if !c.mayStop then .next s
  else
    let s := (s.updCore core fun c => { c with stop :=
      { c.stop with requested := false, stopped := true, since := s.clk, dumped := false } }).traceRec
      (core / 8) 3 (core % 8) 0 (wd (core % 8))
    let bytes := (s.dumpWords core).flatMap fun w => leBytes 8 w.toNat
    match if c.stop.dbase = 0 then none else s.agentWrite 0 c.stop.dbase false bytes with
    | none => .next s
    | some s => .next (s.updCore core fun c => { c with stop := { c.stop with dumped := true } })

/-- PRECISE_STOP_RELEASE (R356, R357): ignored while the core is not stopped. -/
def execPreciseStopRelease (core : Nat) (s : State) : Host.Outcome State Fault Refusal :=
  if (s.core core).stop.stopped then
    .next ((s.updCore core fun c =>
      { c with stop := { c.stop with requested := false, stopped := false, dumped := false } }).traceRec
        (core / 8) 3 (core % 8) 0 (wd (core % 8 + 8)))
  else .next s

/-! ### Fetch (R99) -/

/-- A fetch from the window of a team or slice, or from another owner, is refused (R99). -/
def State.noCode (s : State) (ctx : Nat) (pc : Word) : Bool :=
  pc.toNat / 2 ^ 56 != 0 || ((s.ctx ctx).window pc).isSome

/-- A fetch reads a word with an uncorrectable error: it kills the teams of the group (R367). -/
def State.fetchKills (s : State) (g : Group) (w : Nat) : State :=
  ((g.threads.filterMap fun sid => (tget s.threads sid).map Thread.team).eraseDups).foldl (fun s t => s.uncorrectable t (wd w)) s

/-- A fetch touches its word. -/
def State.fetchFlaw (s : State) (g : Group) (p : Nat) : State :=
  let s := s.noteRead p 4
  match s.badWord p 4 with
  | none => s
  | some w => s.fetchKills g w

/-- The word at a group's PC, or the fault of its threads there (R34, R99, R152, R364). -/
def State.fetchWord (s : State) (g : Group) : State × Except FaultInfo IWord :=
  match (g.threads.head?.bind s.teamOf) with
  | none => (s, .ok 0)
  | some t =>
    if s.noCode t.ctx g.pc then (s, .error (protection g.pc))
    else
      match s.translateTlb (g.core / 8) .fetch t.ctx g.pc.toNat { read := false, write := false, exec := true, eng := false } with
      | (s, .unmapped _) => (s, .error (pageFault 0x0B g.pc))
      | (s, .prot _) => (s, .error (protection g.pc))
      | (s, .owner _) => (s, .error (clusterOwner g.pc))
      | (s, .flaw w) => (s.fetchKills g w, .ok 0)
      | (s, .ok p _ _ _) =>
        if s.deadRange p 4 then (s, .error (bankOff g.pc))
        else if (s.silent p 4).isSome then (s.hear p 4, .error (fabricTimeout g.pc))
        else (s.fetchFlaw g p, .ok (BitVec.ofNat 32 (leNat (s.readLoc p 4))))

/-- A word that part of a group has executed goes no further: those threads have made its drops (R27) and are filed after
it, and its faults are raised.
(DESIGN CHOICE: log 12) (DEDUCED: log 62) -/
def State.closePart (s : State) (gid : Nat) : State :=
  match (tget s.groups gid).bind fun g => g.part.map fun p => (g, p) with
  | none => s
  | some (g, p) =>
    let done := p.done.filter fun x => !p.blocked.contains x && !p.faults.any fun f => f.1 == x && f.2.2 == g.runPc
    let s := done.foldl (fun s x => s.updThread x fun th => th.drop g.run) s
    let s := p.stay.foldl (fun s x => if g.threads.contains x.1 then (s.leaveGroup x.1).fileThread x.1 x.2 else s) s
    (s.updGroup gid fun g => { g with part := none }).raiseAll g.pc p.faults

/-- Every thread of a group faults at its PC: the control instruction that led there has completed (R99).
(DESIGN CHOICE: log 18) -/
def State.fetchFault (s : State) (gid : Nat) (f : FaultInfo) : State :=
  let s := s.closePart gid
  match tget s.groups gid with
  | none => s
  | some g =>
    let saved := if g.run.isEmpty then g.pc else g.runPc
    s.raiseAll g.pc (g.threads.map fun sid => (sid, f, saved))

/-- The instruction that a word issues: one that decodes to none is ILLEGAL_OPCODE (R41). -/
def wordInstr (w : IWord) : Instr := (decodeWord w).getD (.illegalOpcode w)

/-- What becomes of the word at a group's PC: with `ex` the meaning of an instruction. (DESIGN CHOICE: log 12)
(DEDUCED: log 62) -/
def State.runWord (ex : Instr → State → Host.Outcome State Fault Refusal) (s : State) (gid : Nat) :
    Host.Outcome State Fault Refusal :=
  match tget s.groups gid with
  | none => .next s
  | some g =>
    match s.fetchWord g with
    | (s, .error f) => .next { (s.fetchFault gid f) with stalled := false }
    | (s, .ok w) =>
      if (tget s.groups gid).isNone then .next { s with stalled := false }
      else ex (wordInstr w) { s with issuing := some gid, stalled := false }

/-! ### The choice (R148 to R150) -/

/-- Neither a group nor its context is held back: it may issue once its word can. -/
def State.askable (s : State) (core : Nat) (g : Group) : Bool :=
  (s.core core).bankOn g.bank && decide (g.delayUntil ≤ s.clk)
    && !((g.threads.head?.bind s.teamOf).any fun t => (s.ctx t.ctx).frozen || (s.ctx t.ctx).away) && !s.replacing (core / 8)

/-- A group's next word can issue (R150): it does not wait, or something of it does not: its first lanes, a request to
another device, the drop of a `tlbi`. What the fetch takes into a TLB is no part of that. -/
def State.readiness (ex : Instr → State → Host.Outcome State Fault Refusal) (s : State) (gid : Nat) : Bool :=
  match s.runWord ex gid with
  | .next t => !t.stalled || { t with clusters := s.clusters, stalled := s.stalled, scored := s.scored, issuing := s.issuing } != s
  | _ => true

/-- A group's next word waits on the scoreboard (R16, R360). (DESIGN CHOICE: log 56) -/
def State.scoreWaits (ex : Instr → State → Host.Outcome State Fault Refusal) (s : State) (gid : Nat) : Bool :=
  match ({ s with scored := false } : State).runWord ex gid with
  | .next t => t.stalled && t.scored
  | _ => false

/-- The groups of a core's rotation that are issuable, in rotation order; `now`: a group drawn or split this clock is not
yet. -/
def State.readyGroups (ex : Instr → State → Host.Outcome State Fault Refusal) (s : State) (core : Nat) (now : Bool) : List Nat :=
  (s.core core).rotation.filter fun gid =>
    (tget s.groups gid).any (fun g => s.askable core g && (!now || decide (g.from' ≤ s.clk))) && s.readiness ex gid

/-- The power throttle withholds this free issue clock of a core, where its cluster's grant requires it (R370).
(DESIGN CHOICE: log 54) -/
def State.withheld (s : State) (core : Nat) : Bool :=
  decide (0 < (s.cluster (core / 8)).grant) && Config.throttled (core / 8) s.clk

/-- The mark of a group at this clock: 0 when it has just become issuable (R149). -/
def Group.now (g : Group) : Nat := if g.wasReady then g.mark else 0

/-- A group's mark by number. -/
def State.markOf (s : State) (gid : Nat) : Nat := ((tget s.groups gid).map Group.now).getD 0

/-- The group of rank 1 when some group is due (R149). -/
def State.floorGroup (s : State) (ready : List Nat) : Option Nat :=
  let order := sortBy (fun gid => 1024 - s.markOf gid) ready
  if order.zipIdx.any fun p => decide (1024 ≤ s.markOf p.1 + p.2 + 1) then order.head? else none

/-- The group nearest the head of the rotation among those of the highest priority, one that yields passed over (R48,
R148). -/
def State.chosenGroup (s : State) (ready : List Nat) : Option Nat :=
  let yields := fun gid => (tget s.groups gid).any fun g => g.yielded && g.from' == s.clk
  let others := ready.filter fun gid => !yields gid
  let from'' := if others.isEmpty then ready else others
  maxBy (fun gid => ((tget s.groups gid).map s.groupPrio).getD 0) from''

/-- The marks after a free issue clock: one more for every issuable group that did not issue (R149). -/
def State.remark (s : State) (core : Nat) (ready : List Nat) : State :=
  { s with groups := tmap s.groups fun i g =>
      if g.core = core then
        if ready.contains i then { g with mark := g.now + 1, wasReady := true } else { g with wasReady := false }
      else g }

/-- What happens first in a core's clock: a delay runs out, a flip lands or completes, a stop takes effect. -/
def State.coreEvent (s : State) (core : Nat) : Option Instr :=
  let c := s.core core
  match s.groups.find? fun g => g.2.core == core && g.2.delayUntil != 0 && decide (g.2.delayUntil ≤ s.clk) with
  | some g => some (.hschDelayEnd g.1)
  | none =>
    if (match c.flip with | .landing _ t => decide (t ≤ s.clk) | .idle => false) then some (.bankFlipIssuable core)
    else if c.mayLand then some (.bankFlipLand core)
    else if c.mayStop then some (.preciseStop core)
    else none

/-- The group that holds the issue slot may issue: its bank is in, its own delay is over, and its context is not frozen
(R271), unless some of its lanes have executed the word already. -/
def State.holderAskable (s : State) (core : Nat) (g : Group) : Bool :=
  (s.core core).bankOn g.bank && decide (g.delayUntil ≤ s.clk) && decide (g.from' ≤ s.clk)
    && (g.part.isSome || !(g.threads.head?.bind s.teamOf).any fun t => (s.ctx t.ctx).frozen)

/-- The group that issues, and the state with the marks of its clock: the one that holds the issue slot, or by R149 and
R148 the one chosen at a free issue clock, unless a power throttle withholds that clock (R149, R370). -/
def State.choose (ex : Instr → State → Host.Outcome State Fault Refusal) (s : State) (core : Nat) : State × Option Nat :=
  let c := s.core core
  if c.stop.stopped then (s, none)
  else
    match c.holder with
    | some g =>
      (s, if (tget s.groups g).any (s.holderAskable core) && s.readiness ex g then some g else none)
    | none =>
      let ready := s.readyGroups ex core true
      let pick := if s.withheld core then none else s.chosenGroup ready
      (s.remark core ready, (s.floorGroup ready).or pick)

/-- A core's dump shows which of its groups are issuable at the stop: their readiness is taken first. -/
def State.refresh (ex : Instr → State → Host.Outcome State Fault Refusal) (s : State) (core : Nat) : State :=
  let ready := s.readyGroups ex core false
  { s with groups := tmap s.groups fun i g =>
      if g.core = core then { g with mark := if ready.contains i then g.now else g.mark, wasReady := ready.contains i } else g }

/-- The next word of a group takes a task from the deques: it issues after the other cores' words (R199). (DEDUCED:
log 32) -/
def State.takesWork (s : State) (gid : Nat) : Bool :=
  match tget s.groups gid with
  | none => false
  | some g =>
    match s.fetchWord g with
    | (_, .ok w) => (match wordInstr w with | .work _ _ | .workTry _ _ => true | _ => false)
    | _ => false

/-- The arithmetic clocks of a cluster that this clock of the model spans (R354). (DESIGN CHOICE: log 56) -/
def State.unitClocks (s : State) (cl : Nat) : Nat := (s.lcycParts cl + (s.cluster cl).fmhz) / 1700 - s.lcycParts cl / 1700

/-- A clock of a core joins count `k` (R360), in clocks of the core: 0 with an issue, 1 with groups that all wait on the
scoreboard, 2 with groups none of which is issuable for another reason. (DESIGN CHOICE: log 56) -/
def State.countClock (s : State) (core k : Nat) : State :=
  s.updCore core fun c => { c with counts := vset c.counts k (vget c.counts k 0 + s.unitClocks (core / 8)) }

/-- A clock of a core with no issue is counted, unless the core has no group. (DESIGN CHOICE: log 56) -/
def State.countIdle (ex : Instr → State → Host.Outcome State Fault Refusal) (s : State) (core : Nat) : State :=
  let gs := s.groups.filter fun g => g.2.core == core
  if gs.isEmpty then s
  else
    let waits := fun g : Nat × Group => !g.2.parked && decide (g.2.from' ≤ s.clk) && s.askable core g.2 && s.scoreWaits ex g.1
    s.countClock core (if !(s.core core).stop.stopped && gs.all waits then 1 else 2)

/-- The teams whose accesses have read an uncorrectable word of the tables are killed (R367). (DESIGN CHOICE: log 65) -/
def State.killLost (s : State) : State :=
  (s.teams.filter fun p => p.2.lost.isSome).foldl (fun s p =>
    (s.updTeam p.1 fun t => { t with lost := none }).uncorrectable p.1 (p.2.lost.getD 0)) s

/-- A CORE'S TURN in a clock: an event of its own, the refusal of a spent team's word, or one word of the chosen group.
The turn of a core whose word takes a task comes again after the others'; a core that `bkpt.stop` has stopped writes its
dump in the same clock. A turn from 384 on is one of a core whose clock has been counted. (DEDUCED: log 32)
(DESIGN CHOICE: log 70) -/
def State.coreTurn (ex : Instr → State → Host.Outcome State Fault Refusal) (s : State) (turn : Nat) (rest : List Nat) :
    Host.Outcome State Fault Refusal :=
  let core := turn % 192
  match s.coreEvent core with
  | some (.preciseStop c) => ex (.preciseStop c) (s.refresh ex core)
  | some e => ex e s
  | none =>
    let q := s.choose ex core
    match q.2 with
    | none => .next { (if turn < 384 then q.1.countIdle ex core else q.1) with todo := rest }
    | some gid =>
      match (tget q.1.groups gid).bind fun g => if g.part.isSome then none else q.1.spentTeam g with
      | some t => ex (.watchdog t) { s with issuing := some gid }
      | none =>
        if turn < 192 && s.takesWork gid then .next { s with todo := rest ++ [core + 192] }
        else
          match q.1.runWord ex gid with
          | .next t =>
            let t := t.killLost
            .next { t.countClock core 0 with
              todo := if (t.core core).mayStop then (core + 384) :: rest else rest, issuing := none, stalled := false,
              scored := false }
          | x => x

end Sys2Proof.Machine
end

