-- ==== Sys2Proof/Machine/Lanes.lean ====
section
/-! DEFINITION. The permute network and the x-file (R162 to R168). -/

namespace Sys2Proof.Machine

/-- GROUP_SHAPE (R163). -/
def groupShape : FaultInfo := freezeFault 0x0E 0 0

/-- The trapping form is refused by a group that is not whole (R163). -/
def Lane.shapeFault (l : Lane) : Bool := l.mods.trap && !l.whole

/-- The value of source `i` in the thread of a lane, if that lane contributes. -/
def Lane.peer (l : Lane) (lane i : Nat) : Option Word :=
  (l.peers.find? fun p => sidLane p.1 == lane).map fun p => wordAt p.2 i

/-- The source lane of a thread in lane `i` under a control value (R164). -/
def permLane (i : Nat) (y : Word) : Option Nat :=
  let n := bits y 4 0
  match bits y 6 5 with
  | 0 => some n
  | 1 => if n ≤ i then some (i - n) else none
  | 2 => if i + n ≤ 31 then some (i + n) else none
  | _ => some (i ^^^ n)

/-- PERM (R164). -/
def execPerm (g : BitVec 3) (d : BitVec 6) (a b : BitVec 7) (t : BitVec 1) (s : State) : Host.Outcome State Fault Refusal :=
  { guard := g, srcs := [(0, a), (1, b)], dst := some d, mods := mTrap, collective := true : Form }.run (fun l s =>
    if l.shapeFault then .fault groupShape
    else
      let v := ((permLane (sidLane l.sid) (l.src 1)).bind fun k => l.peer k 0).getD (l.src 0)
      .ok s [(d, .known (if t.toNat = 0 then v &&& 0xFFFFFFFF#64 else v))]) s

/-- The ballot word (R165): contributing lanes above, lanes whose bit is 1 below. -/
def ballotWord (cs : List (Nat × Bool)) : Word :=
  wd (cs.foldl (fun n c => n + 2 ^ (32 + c.1) + if c.2 then 2 ^ c.1 else 0) 0)

/-- BALLOT (R165). -/
def execBallot (g : BitVec 3) (d : BitVec 6) (a : BitVec 7) (j : BitVec 6) (s : State) : Host.Outcome State Fault Refusal :=
  { guard := g, srcs := [(0, a)], dst := some d, mods := mTrap, collective := true : Form }.run (fun l s =>
    if l.shapeFault then .fault groupShape
    else .ok s [(d, .known (ballotWord (l.peers.map fun p => (sidLane p.1, bitAt (wordAt p.2 0) j.toNat))))]) s

/-- BALLOT_P (R165). -/
def execBallotP (g : BitVec 3) (d : BitVec 6) (k : BitVec 3) (s : State) : Host.Outcome State Fault Refusal :=
  { guard := g, dst := some d, mods := mTrap, collective := true : Form }.run (fun l s =>
    if l.shapeFault then .fault groupShape
    else .ok s [(d, .known (ballotWord (l.peers.map fun p =>
      (sidLane p.1, (tget s.threads p.1).any fun th => th.pred k))))]) s

/-- VOTE (R166). -/
def execVote (g k p : BitVec 3) (a b : BitVec 7) (s : State) : Host.Outcome State Fault Refusal :=
  { guard := g, srcs := [(0, a), (1, b)], illegal := 5 ≤ k.toNat || p == 0, mods := mTrap, collective := true : Form }.run
    (fun l s =>
      if l.shapeFault then .fault groupShape
      else
        let v := voteCond k (l.peers.map fun q => wordAt q.2 0 &&& wordAt q.2 1 != 0)
        .ok (s.updThread l.sid fun th =>
          { th with preds := if v then th.preds ||| BitVec.ofNat 8 (2 ^ p.toNat)
                             else th.preds &&& ~~~(BitVec.ofNat 8 (2 ^ p.toNat)) }) []) s

/-- XLD (R167). -/
def execXld (g : BitVec 3) (d : BitVec 6) (a : BitVec 7) (imm : BitVec 9) (s : State) : Host.Outcome State Fault Refusal :=
  { guard := g, srcs := [(0, a)], dst := some d : Form }.run (fun l s =>
    let ix := l.src 0 + sx imm
    if l.team.hdr.xsize ≤ ix.toNat then .fault (xBounds ix)
    else match l.thread.x[ix.toNat]? with
      | none => .fault (xBounds ix)
      | some x =>
        if x.dead then .fault (freezeFault 0x04 ix (1 + 4 * 0x7F))
        else if x.val.isPend then .hold
        else .ok (s.touch l.sid [16 + l.team.hdr.nreg + ix.toNat]) [(d, x.val)]) s

/-- XST (R168): a pending data value makes the word pending. (DEDUCED: log 15) -/
def execXst (g : BitVec 3) (a b : BitVec 7) (o : BitVec 8) (s : State) : Host.Outcome State Fault Refusal :=
  { guard := g, srcs := [(0, a), (1, b)], raw := [0] : Form }.run (fun l s =>
    let ix := l.src 1 + wd o.toNat
    if l.team.hdr.xsize ≤ ix.toNat then .fault (xBounds ix)
    else .ok ((s.touch l.sid [16 + l.team.hdr.nreg + ix.toNat]).updThread l.sid fun th =>
      { th with x := th.x.set ix.toNat { val := l.vals.getD 0 (.known 0), dead := false } }) []) s

end Sys2Proof.Machine
end

