-- ==== Sys2Proof/Machine/Observe.lean ====
section
/-! DEFINITION. The counter series (R360), captures of contexts (R361) and energy accumulators (R362). -/

namespace Sys2Proof.Machine

/-! ### The counter series (R360) -/

/-- The counts of the next interval begin. -/
def State.clearCounts (s : State) : State :=
  { s with cores := tmap s.cores fun _ c => { c with counts := Vector.replicate 3 0 },
           series := { s.series with lastParts := (List.range 24).map fun cl => s.lcycParts cl + (s.cluster cl).fmhz } }

/-- The arithmetic clocks of a cluster in the interval since the last tick, this clock of the model among them. -/
def State.intervalClocks (s : State) (cl : Nat) : Nat :=
  (s.lcycParts cl + (s.cluster cl).fmhz) / 1700 - s.series.lastParts.getD cl 0 / 1700

/-- A count of a core over the interval (R360): clocks with an issue, waiting on the scoreboard, not issuable, and with no
group, which are the rest of the interval's. (DESIGN CHOICE: log 56) -/
def State.issueCount (s : State) (core i : Nat) : Nat :=
  let c := (s.core core).counts
  min (2 ^ 32 - 1) (if i < 3 then vget c i 0 else s.intervalClocks (core / 8) - c.toList.sum)

/-- A write of word 0 of the series block: EN = 1 with SLOG or K out of range is ignored. -/
def State.writeSeries (s : State) (w : Word) : State :=
  let slog := bits w 11 8
  let k := bits w 7 3
  if bitAt w 0 && (slog == 0 || k < 10 || 24 < k) then s
  else
    { s with series :=
      { s.series with sbase := wd (bits w 63 12 * 4096), slog := slog, k := k, en := bitAt w 0, lastTick := s.ns / 2 ^ k } }.clearCounts

/-- Device time has reached a multiple of 2^K ns that has not been sampled. -/
def State.sampleDue (s : State) : Bool := s.series.en && decide (s.series.lastTick < s.ns / 2 ^ s.series.k)

/-- 32-bit word `i` of a sample; busy clocks of units, whose times are not modelled, are free values. (DESIGN CHOICE:
log 56) -/
def State.sampleWord (s : State) (i : Nat) : BitVec 32 :=
  let at' := s.ns / 2 ^ s.series.k * 2 ^ s.series.k
  if i < 2 then BitVec.ofNat 32 (at' / 2 ^ (32 * i))
  else if i < 4 then BitVec.ofNat 32 (s.series.swr.toNat / 2 ^ (32 * (i - 2)))
  else if i = 4 then BitVec.ofNat 32 s.series.k
  else if i < 16 ∨ 987 ≤ i then 0
  else if i < 784 then BitVec.ofNat 32 (s.issueCount ((i - 16) / 4) (i % 4))
  else Config.busyCount s.freeCtr i

/-- COUNTER_SAMPLE (R360): a sample is written, or lost while the ring is full. -/
def execCounterSample (s : State) : Host.Outcome State Fault Refusal :=
  if !s.sampleDue then .next s
  else
    let c := s.series
    let s := { s with series := { c with lastTick := s.ns / 2 ^ c.k } }
    let lose := { s with series := { s.series with slost := s.series.slost + 1 } }.clearCounts
    if 2 ^ c.slog ≤ (c.swr - c.srd).toNat then .next lose
    else
      let bs := (List.range 1024).flatMap fun i => leBytes 4 (s.sampleWord i).toNat
      match s.agentWrite 0 (c.sbase + wd (4096 * (c.swr.toNat % 2 ^ c.slog))) false bs with
      | some s => .next { s.useFree with series := { s.series with swr := s.series.swr + 1 } }.clearCounts
      | none => .next lose

/-- SRD_WRITE (R298, R360). -/
def execSrdWrite (w : Word) (s : State) : Host.Outcome State Fault Refusal :=
  .next { s with series := { s.series with srd := monoMax s.series.srd w } }

/-! ### Captures (R361) -/

/-- CAPTURE_START (R361). -/
def execCaptureStart (ctx : Nat) (s : State) : Host.Outcome State Fault Refusal :=
  if 64 ≤ ctx then .next s
  else .next (s.updCtx ctx fun c =>
    { c with capturing := true, capStart := wd s.ns, capIssued := 0, capPasses := 0, capBytes := 0, capEnergy := 0, capSwaps := 0 })

/-- The words of a capture record. Energy that the hardware has measured is a free value. -/
def State.captureWords (s : State) (ctx : Nat) : List Word :=
  let c := s.ctx ctx
  [c.capStart, wd s.ns, wd c.capIssued, wd c.capPasses, wd c.capBytes, wd (c.capEnergy + Config.energyAt s.clk (1024 + ctx)),
   wd ((if c.capSwaps = 0 then 0 else 2 ^ 63) + c.capSwaps % 2 ^ 32), 0]

/-- CAPTURE_STOP (R361): the record is written; one that cannot be written is lost. (DESIGN CHOICE: log 56) -/
def execCaptureStop (ctx : Nat) (s : State) : Host.Outcome State Fault Refusal :=
  if 64 ≤ ctx then .next s
  else
    let w := (s.agentWrite ctx (s.ctx ctx).capaddr false (wordsBytes (s.captureWords ctx))).getD s
    .next (w.updCtx ctx fun c => { c with capturing := false })

/-! ### Energy (R362) -/

/-- ENERGY_LOW_READ (R362). (DESIGN CHOICE: log 55) -/
def execEnergyLowRead (acc : Nat) (s : State) : Host.Outcome State Fault Refusal :=
  if acc < 26 ∨ (32 ≤ acc ∧ acc < 96) then .next (s.latchEnergy acc) else .next s

end Sys2Proof.Machine
end

