-- ==== Sys2Proof/Machine/Ringmaster.lean ====
section
/-! DEFINITION. The Carousel (R303, R304, R330, R334) and the Ringmaster: admission of streams (R302, R326 to R330), acts
and output cards (R331 to R336, R338, R340, R342, R343). -/

namespace Sys2Proof.Machine

/-! ### The Carousel -/

/-- Bytes copied from one place to another: the banks read are in use, and errors are met (R151, R185). -/
def State.copyBytes (s : State) (src dst n : Nat) : State := (s.noteRead src n).replaceMem dst (readMem s.mem src n)

/-- Copies of one line, to consecutive lines. -/
def State.copyLine (s : State) (d : List Word) (src g line n : Nat) : State :=
  (List.range n).foldl (fun s i => s.copyBytes src (odPixel d g 0 (line + i)) (8 * odRW d)) s

/-- HALO_FILL (R304): the halos that the end of strip `strip`, with running number `g`, fills. -/
def State.fillHalos (s : State) (d : List Word) (g strip : Nat) : State :=
  let hl := odHL d
  let hc := odRH d
  let n := hl * 8 * odRW d
  let s := if strip = 0 then s.copyLine d (odPixel d g 0 hl) g 0 hl
    else s.copyBytes (odPixel d g 0 hl) (odPixel d (g - 1) 0 (hl + hc)) n
  if strip + 1 < odNS d then s.copyBytes (odPixel d g 0 hc) (odPixel d (g + 1) 0 0) n
  else s.copyLine d (odPixel d g 0 (hl + (max 1 (stripLines d strip) - 1))) g (hl + hc) hl

/-- A channel converted to 10 bits (R334): clamped to [0, 1], NaN 0, times 1,023, rounded. -/
def unorm10 (h : Nat) : Nat :=
  match f16.decode h with
  | .nan => 0
  | .inf neg => if neg then 0 else 1023
  | .fin neg m e => if neg then 0 else min 1023 (((Num.fin false (m * 1023) e).toInt 0).getD 0).toNat

/-- A pixel in the RGB 10-bit layout of R303. -/
def rgb10 (w : Word) : Nat := unorm10 (bits w 15 0) + unorm10 (bits w 31 16) * 2 ^ 10 + unorm10 (bits w 47 32) * 2 ^ 20

/-- Location of byte `off` of the output slot of a strip, by running number. -/
def outputLoc (d : List Word) (g off : Nat) : Nat :=
  sliceLoc (odCluster d) (((odOutputRing d).1 + g % bits (wordAt d 0) 11 8 * odOutputSlot d + off) % 2 ^ 25)

/-- The output slot is written from the render lines (R334 step 1), which are read as `copyBytes` reads. -/
def State.convertStrip (s : State) (d : List Word) (g strip : Nat) : State :=
  (List.range (stripLines d strip)).foldl (fun s y =>
    (s.noteRead (odPixel d g 0 (odHL d + y)) (8 * odOW d)).replaceMem (outputLoc d g (4 * odOW d * y)) ((List.range (odOW d)).flatMap fun x =>
      leBytes 4 (rgb10 (wd (s.readNat (odPixel d g x (odHL d + y)) 8))))) s

/-! ### Admission (R302, R303, R321, R327 to R330) -/

/-- A context is resident: some bank is assigned to it, and it is not swapped out. -/
def State.resident (s : State) (ctx : Nat) : Bool :=
  !(s.ctx ctx).away && s.cores.any fun p => !(p.2.banksOf ctx).isEmpty

/-- Why an admission fails: REJ, and for a record fault the record's code, address and EXTRA. -/
inductive Refused where
  | rej (n : Nat)
  | record (code : BitVec 5) (addr : Word) (extra : Nat)
  /-- a record fault without a record of its own (R52) -/
  | silent
deriving DecidableEq, Repr

/-- CTX of a stream record. -/
def srCtx (r : List Word) : Nat := bits (wordAt r 0) 47 42

/-- ABANK. -/
def srBank (r : List Word) : Nat := bits (wordAt r 0) 37 37

/-- CORES. -/
def srCores (r : List Word) : List Nat := (List.range 8).filter fun i => bitAt (wordAt r 0) (24 + i)

/-- TFRAME. -/
def srFrame (r : List Word) : Nat := bits (wordAt r 3) 31 0

/-- TSTRIP. -/
def srStrip (r : List Word) : Nat := bits (wordAt r 3) 63 32

/-- BUDGET. -/
def srBudget (r : List Word) : Nat := bits (wordAt r 4) 63 32

/-- LEAD. -/
def srLead (r : List Word) : Nat := bits (wordAt r 4) 31 0

/-- UPBUDGET. -/
def srUpBudget (r : List Word) : Nat := bits (wordAt r 5) 63 32

/-- UPCARD. -/
def srUp (r : List Word) : Word := wordAt r 7

/-- Reserved fields of a stream record. -/
def srReserved : List (Nat × Nat × Nat) := [(0, 23, 0), (0, 36, 32), (0, 63, 48)] ++ (List.range 7).map fun i => (9 + i, 63, 0)

/-- CONS of an output descriptor: 0 encoder, else display output CONS - 1. -/
def odCons (d : List Word) : Nat := bits (wordAt d 0) 23 22

/-- Reserved fields of an output descriptor. -/
def odReserved : List (Nat × Nat × Nat) :=
  [(1, 31, 25), (1, 63, 57), (2, 23, 23), (2, 63, 26), (3, 31, 2), (3, 63, 56), (9, 63, 51)]
    ++ (List.range 6).map fun i => (10 + i, 63, 0)

/-- Link rate of a display stream in bits per second (R321). (DESIGN CHOICE: log 46) -/
def linkRate (d : List Word) : Nat :=
  (if bitAt (wordAt d 9) 50 then 20000000000 else 10000000000) * 2 ^ bits (wordAt d 9) 49 48

/-- The range checks of an output descriptor that its words alone decide (R302, R321). -/
def odRanges (d : List Word) : List (Bool × Nat × Nat) :=
  let w := wordAt d
  let enc := odCons d == 0
  let owned := fun a : Word => a.toNat < 2 ^ 56
  [(odOW d < 64 || 8192 < odOW d || odOW d % 16 != 0 || (enc && (odOW d < 64 * 2 ^ bits (w 3) 1 0 || 4096 < odOW d)), 0, 48),
   (odOH d < 16 || 8192 < odOH d || odOH d % 2 != 0 || (enc && 2304 < odOH d), 0, 32), (bits (w 0) 31 30 == 3, 0, 30),
   (decide (4 < bits (w 0) 28 26), 0, 26), (bits (w 0) 25 24 == 3, 0, 24), (odCons d == 3, 0, 22),
   (odOFMT d == 3 || (enc && odOFMT d == 2), 0, 20), (decide (8 < odHL d), 0, 16), (decide (bits (w 0) 15 12 < 3), 0, 12),
   (decide (bits (w 0) 11 8 < 2), 0, 8), (decide (23 < odCluster d), 0, 3), (bits (w 1) 56 32 % 64 != 0, 1, 32),
   (bits (w 1) 24 0 % 64 != 0, 1, 0), (bits (w 2) 22 0 % 8 != 0, 2, 0)]
  ++ (if enc then
      [(bits (w 3) 1 0 == 3, 3, 0), ((w 4).toNat % 4096 != 0 || !owned (w 4), 4, 0), (bits (w 5) 31 0 % 4096 != 0 || bits (w 5) 31 0 == 0, 5, 0),
       (bits (w 5) 63 32 == 0 || decide (65536 < bits (w 5) 63 32), 5, 32), ((w 6).toNat % 32 != 0 || !owned (w 6), 6, 0),
       ((w 7).toNat % 4096 != 0 || !owned (w 7), 7, 0), mustZero d 8, mustZero d 9]
    else
      (List.range 5).map (fun i => mustZero d (3 + i))
      ++ [(decide (bits (w 8) 63 48 < odOW d + 32), 0, 48), (decide (bits (w 8) 47 32 < odOH d + 3), 0, 32),
          (bits (w 9) 49 48 == 3, 9, 48), (decide (linkRate d < bits (w 9) 47 0 * 32), 9, 0)])

/-- The reference-frame area of an encoder stream does not lie in LP6, as its page is mapped now (R302).
(DEDUCED: log 43) -/
def State.refRange (s : State) (ctx : Nat) (d : List Word) : Bool × Nat × Nat :=
  (odCons d == 0 && match s.agentPlace ctx (wordAt d 7) .none' with
    | .ok p _ _ _ => decide (2 ^ 40 ≤ p)
    | _ => true, 7, 0)

/-- LANES or LRATE exceeds what the sink accepted (R368). (DESIGN CHOICE: log 46) -/
def State.sinkRanges (s : State) (d : List Word) : List (Bool × Nat × Nat) :=
  let p := (tgetD s.package.dpstat (odCons d - 1) 0).toNat
  if odCons d = 0 then []
  else [(decide (p / 64 < bits (wordAt d 9) 49 48 + 1), 9, 48), (bitAt (wordAt d 9) 50 && p / 32 % 2 == 0, 9, 50)]

/-- A ring lies outside the slice, outside granules of KIND 10, or meets a ring of another stream in use (R303). -/
def State.ringBad (s : State) (n cl : Nat) (r : Nat × Nat) : Bool :=
  2 ^ 25 < r.1 + r.2
    || (List.range ((r.1 + r.2 - 1) / 65536 - r.1 / 65536 + 1)).any
      (fun i => (tgetD (s.cluster cl).owner (r.1 / 65536 + i) 0).toNat / 16384 != 2)
    || s.streams.any fun p => p.1 != n && p.2.state != 0 && odCluster p.2.odesc == cl
      && (rangesMeet r.1 r.2 (odRenderRing p.2.odesc).1 (odRenderRing p.2.odesc).2
        || rangesMeet r.1 r.2 (odOutputRing p.2.odesc).1 (odOutputRing p.2.odesc).2)

/-- The checks of the stream record's own fields, in the order of R328. -/
def State.srRanges (s : State) (r d : List Word) : List (Bool × Nat × Nat) :=
  let ctx := srCtx r
  let cores := srCores r
  let up := srUp r
  let assigned := fun i : Nat => ((s.core (odCluster d * 8 + i)).banksOf ctx).contains (srBank r)
  [(!s.resident ctx, 0, 42), (decide ((s.ctx ctx).maxprio < bits (wordAt r 0) 41 38), 0, 38),
   (cores.isEmpty || cores.any fun i => !assigned i, 0, 24),
   (srFrame r == 0 || decide (srFrame r < odNS d * srStrip r), 3, 0), (srStrip r == 0 || decide (srStrip r < srBudget r), 3, 32),
   (srBudget r == 0 || decide (srBudget r ≤ bits (wordAt r 5) 31 0), 4, 32),
   (up == 0 && (odC d == 2 || odOFMT d != 2), 7, 0), (up != 0 && srUpBudget r == 0, 5, 32),
   (up != 0 && decide (srLead r < srStrip r + srUpBudget r), 3, 32)]

/-- The words of a card taken from a template with the overrides of R333. -/
def overridden (r d ws : List Word) (deadline : Word) : List Word :=
  let w := (wordAt ws 0).toNat
  let keep := w % 2 ^ 32 + bits (wordAt ws 0) 51 45 * 2 ^ 45 + bits (wordAt ws 0) 63 56 * 2 ^ 56
    + bits (wordAt ws 0) 39 34 * 2 ^ 34
  (ws.set 0 (wd (keep + odCluster d * 2 ^ 40 + bits (wordAt r 0) 41 38 * 2 ^ 52))).set 8 deadline

/-- What a template shows wrong at admission (R190, R328): its own words are checked, as they stand in memory.
(DEDUCED: log 43) -/
def State.templateBad (s : State) (r d : List Word) (a : Word) : Option Refused :=
  let ctx := srCtx r
  match s.agentRead ctx a false 128 with
  | none =>
    let f := ((s.cardAddrBad ctx a).map fun c => (c, a)).getD (s.readFault ctx a false 128)
    some (.record f.1 f.2 0)
  | some bs =>
    let ws := leWords 16 bs
    match s.checkCard ctx a ws .act (odCluster d) with
    | .bad _ none => some .silent
    | .bad _ (some (c, x, e)) => some (.record c x e)
    | .good h _ =>
      if cardTeams h ws ≠ 1 then some (.record 0x13 a (extraAt 4 0))
      else if bits (wordAt ws 6) 31 16 ≠ 0 then some (.record 0x13 a (extraAt 6 16))
      else if 216 < h.argsz then some (.record 0x13 h.addr (extraAt 0 8))
      else none

/-- The encoder streams in use and a new one exceed 7,962,624,000 pixels per second (R329): exact, over the product of
their frame periods. -/
def encoderOver (ds : List (Nat × Nat)) : Bool :=
  let all := ds.foldl (fun a p => a * p.2) 1
  decide (7962624000 * all < ds.foldl (fun a p => a + p.1 * 1000000000 * (all / p.2)) 0)

/-- Loads, as numerator and denominator, together exceed 0.85 (R329): exact. -/
def capacityOver (ls : List (Nat × Nat)) : Bool :=
  let all := ls.foldl (fun a p => a * p.2) 1
  decide (17 * all < 20 * ls.foldl (fun a p => a + p.1 * (all / p.2)) 0)

/-- The load that a stream puts on each of its cores. -/
def srLoad (r d : List Word) : Nat × Nat := (odNS d * (srBudget r + srUpBudget r), srFrame r)

/-- Streams in use other than `n`. -/
def State.usedStreams (s : State) (n : Nat) : List Stream :=
  (s.streams.filter fun p => p.1 != n && p.2.state != 0).map Prod.snd

/-- The last two rows of R328: the consumer is busy, or a core has no capacity. -/
def State.loadBad (s : State) (n : Nat) (r d : List Word) : Option Refused :=
  let others := s.usedStreams n
  let px := fun (r d : List Word) => (odOW d * odOH d, srFrame r)
  if odCons d ≠ 0 ∧ others.any (fun t => odCons t.odesc == odCons d) then some (.rej 3)
  else if odCons d = 0 ∧ encoderOver (px r d :: (others.filter fun t => odCons t.odesc == 0).map fun t => px t.rec' t.odesc) then
    some (.rej 3)
  else if (srCores r).any fun i => capacityOver (srLoad r d
      :: (others.filter fun t => odCluster t.odesc == odCluster d && (srCores t.rec').contains i).map fun t =>
        srLoad t.rec' t.odesc) then some (.rej 2)
  else none

/-- The stream record at an address, read through the lowest resident context that maps it: that context, and its words.
(DEDUCED: log 43) -/
def State.streamRecord (s : State) (a : Word) : Option (Nat × List Word) :=
  ((List.range 64).filter s.resident).findSome? fun c => (s.agentRead c a false 128).map fun bs => (c, leWords 16 bs)

/-- The checks of R328 after STATE, in order: the record's context if known, and the first failure or the two records.
(DESIGN CHOICE: log 23) -/
def State.admitChecks (s : State) (n : Nat) (a : Word) : Option Nat × Except Refused (List Word × List Word) :=
  match s.streamRecord a with
  | none =>
    (none, .error (.record (if a.toNat % 128 ≠ 0 then 0x0A else 0x0D) a 0))
  | some (c, r) =>
    let oa := wordAt r 1
    let bad := fun x : Refused => (some (srCtx r), (Except.error x : Except Refused (List Word × List Word)))
    if a.toNat % 128 ≠ 0 then bad (.record 0x0A a 0)
    else if s.notGlobal c a then bad (.record 0x0D a 0)
    else
      match s.agentRead (srCtx r) oa false 128 with
      | none => let f := s.readFault (srCtx r) oa false 128
        bad (.record f.1 f.2 0)
      | some db =>
        let d := leWords 16 db
        match reservedAt r srReserved, reservedAt d odReserved with
        | some (w, b), _ => bad (.record 0x03 a (extraAt w b))
        | none, some (w, b) => bad (.record 0x03 oa (extraAt w b))
        | none, none =>
          match firstBad ((oa.toNat % 128 != 0, 0, 0) :: odRanges d ++ s.refRange (srCtx r) d :: s.sinkRanges d ++
              [(s.ringBad n (odCluster d) (odRenderRing d), 1, 32), (s.ringBad n (odCluster d) (odOutputRing d), 1, 0)]) with
          | some (w, b) => bad (.record 0x13 oa (extraAt w b))
          | none =>
            match firstBad (s.srRanges r d) with
            | some (w, b) => bad (.record 0x13 a (extraAt w b))
            | none =>
              match s.templateBad r d (wordAt r 6), (if srUp r = 0 then none else s.templateBad r d (srUp r)) with
              | some x, _ => bad x
              | none, some x => bad x
              | none, none =>
                match s.loadBad n r d with
                | some x => bad x
                | none => (some (srCtx r), .ok (r, d))

/-- f0 (R330): the smallest frame whose first act starts at least 10,000 ns from now. -/
def firstFrame (r : List Word) (now : Nat) : Nat :=
  let gap : Int := (now + 10000 + srLead r + srBudget r : Nat) - ((wordAt r 2).toNat : Int)
  ((gap + (srFrame r - 1 : Nat)) / (srFrame r : Int)).toNat

/-- The status word of a display output changes. -/
def State.updDp (s : State) (o : Nat) (f : BitVec 8 → BitVec 8) : State :=
  { s with package := { s.package with dpstat := tset s.package.dpstat o (f (tgetD s.package.dpstat o 0)) } }

/-- The stream is admitted (R330); a display link is not yet trained at its settings (R368). (DESIGN CHOICE: log 46) -/
def State.admitStream (s : State) (n : Nat) (r d : List Word) : State :=
  let zero := fun (s : State) (p : Nat × Nat) => s.replaceMem (sliceLoc (odCluster d) p.1) (List.replicate p.2 0)
  let f0 := firstFrame r s.ns
  let s := if odCons d = 0 then s else s.updDp (odCons d - 1) fun p => p &&& 0xEF
  (zero (zero s (odRenderRing d)) (odOutputRing d)).updStream n fun t =>
    { t with state := 1, rej := 0, firstf := wd f0, rec' := r, odesc := d, ctx := srCtx r, nextF := f0, nextS := 0,
             prevRaised := false, acts := [], slots := [], missed := [], outputs := [], encF := f0, encRow := 0,
             encSkip := 0, encForceKey := false, line := 0, lineF := f0 }

/-- The records that admission reads use the banks that hold them (R151). -/
def State.admitTouch (s : State) (a : Word) : State :=
  match s.streamRecord a with
  | none => s
  | some (c, r) =>
    let s := (s.agentTouch c a false 128).agentTouch (srCtx r) (wordAt r 1) false 128
    (s.agentTouch (srCtx r) (wordAt r 6) false 128).agentTouch (srCtx r) (srUp r) false (if srUp r = 0 then 0 else 128)

/-- ADMIT of a stream (R328). (DEDUCED: log 43) -/
def State.admitCmd (s : State) (n : Nat) : State :=
  let t := s.stream n
  let rej := fun (s : State) (k : Nat) => s.updStream n fun t => { t with rej := k }
  if t.state ≠ 0 then rej s 4
  else
    let found := s.admitChecks n t.srec
    let s := s.admitTouch t.srec
    match found with
    | (_, .ok (r, d)) => s.admitStream n r d
    | (_, .error (.rej k)) => rej s k
    | (_, .error .silent) => rej s 1
    | (c, .error (.record code a e)) =>
      match c with
      | some c => if s.resident c then (rej s 1).engineRecord c 0 0 0 code false false a e else rej s 1
      | none => rej s 1

/-- STREAM_ADMIT (R328). -/
def execStreamAdmit (stream : Nat) (s : State) : Host.Outcome State Fault Refusal :=
  if stream < 64 then .next (s.admitCmd stream) else .next s

/-! ### Stopping (R343) -/

/-- An output card is due (R335): its strip is the last of its frame, or the act of the next strip has been abandoned or
has retired. -/
def Stream.outputDue (t : Stream) (g : Nat) : Bool :=
  let ns := odNS t.odesc
  g % max ns 1 + 1 == ns || (g + 1 < t.running t.nextF t.nextS &&
    !t.acts.any fun a => !a.output && !a.abandoned && t.running a.frame a.strip == g + 1)

/-- The first output card that is due. -/
def Stream.nextOutput (t : Stream) : Option Nat := t.outputs.find? t.outputDue

/-- A stopping stream with nothing open is idle (R343). (DESIGN CHOICE: log 44) -/
def State.settleStream (s : State) (n : Nat) : State :=
  s.updStream n fun t =>
    if t.state = 2 ∧ t.acts.isEmpty ∧ t.nextOutput.isNone then { t with state := 0, outputs := [] } else t

/-- An admitted stream stops. -/
def State.stopStream (s : State) (n : Nat) : State :=
  if (s.stream n).state = 1 then (s.updStream n fun t => { t with state := 2 }).settleStream n else s

/-- STREAM_STOP (R343). -/
def execStreamStop (stream : Nat) (s : State) : Host.Outcome State Fault Refusal :=
  if stream < 64 then .next (s.stopStream stream) else .next s

/-- Device time has reached the start of frame FIRSTF + NFRAMES. -/
def State.limitDue (s : State) (t : Stream) : Bool :=
  t.state == 1 && wordAt t.rec' 8 != 0 && decide (t.tStart (t.firstf.toNat + (wordAt t.rec' 8).toNat) 0 ≤ s.ns)

/-- STREAM_FRAME_LIMIT (R343). -/
def execStreamFrameLimit (stream : Nat) (s : State) : Host.Outcome State Fault Refusal :=
  if s.limitDue (s.stream stream) then .next (s.stopStream stream) else .next s

/-! ### Acts (R332, R333, R338) -/

/-- The act word (R333). -/
def actWord (n f strip : Nat) : Word := wd (f % 2 ^ 32 * 2 ^ 32 + strip % 65536 * 65536 + n)

/-- The card of an act or an output card is accepted from its template with the overrides of R333, and enters the stream's
open ones. One whose template cannot be read, or that fails acceptance, completes FAULTED. (DESIGN CHOICE: log 44) -/
def State.openCard (s : State) (n : Nat) (a : Word) (f strip : Nat) (output : Bool) (deadline : Int) : State :=
  let t := s.stream n
  let ref : ActRef := { stream := n, frame := f, strip := strip, output := output }
  let cores := bits (wordAt t.rec' 0) 31 24
  let set := fun k : Card =>
    { k with act := some ref, cores := cores, bank := some (srBank t.rec'), args := k.args.set 27 (actWord n f strip) }
  let add := fun (s : State) (id : Nat) (c : Option Nat) =>
    s.updStream n fun t =>
      { t with acts := t.acts ++ [{ frame := f, strip := strip, card := id, team := none, output := output, zeroed := false,
                                    rasterised := false, abandoned := false, closed := c }] }
  match s.agentRead t.ctx a false 128 with
  | none =>
    let f := s.readFault t.ctx a false 128
    (add ((s.agentTouch t.ctx a false 128).engineRecord t.ctx 0 0 (odCluster t.odesc) f.1 false false f.2 0) s.fresh (some 1)).bump
  | some bs =>
    let s := s.agentTouch t.ctx a false 128
    match s.acceptWords t.ctx a (overridden t.rec' t.odesc (leWords 16 bs) (wi deadline)) .act (odCluster t.odesc) set with
    | (s, .ok id) => add s id none
    | (s, .failed id) => add s id none
    | (s, _) => s

/-- A bank flip is requested on a core (R276). -/
def State.requestFlip (s : State) (core bank : Nat) : State := s.updCore core fun c => { c with flips := c.flips ++ [bank] }

/-- The next act of a stream is to start now. -/
def State.actDue (s : State) (t : Stream) : Bool :=
  t.state == 1 && !s.limitDue t && decide (t.tStart t.nextF t.nextS ≤ s.ns)
    && (wordAt t.rec' 8 == 0 || decide (t.nextF < t.firstf.toNat + (wordAt t.rec' 8).toNat))

/-- The next act starts. (DEDUCED: log 39) (DESIGN CHOICE: log 44) -/
def State.startAct (s : State) (n : Nat) : State :=
  let t := s.stream n
  let cl := odCluster t.odesc
  let s := (srCores t.rec').foldl (fun s i => s.requestFlip (cl * 8 + i) (srBank t.rec')) s
  let base := bits (wordAt t.odesc 0) 28 26
  let level := if t.prevRaised then min (base + 1) 4 else base
  let last := t.nextS + 1 == odNS t.odesc
  let s := s.updStream n fun t =>
    { t with frame := BitVec.ofNat 32 t.nextF, strip := BitVec.ofNat 16 t.nextS, level := BitVec.ofNat 3 level,
             prevRaised := false, nextF := if last then t.nextF + 1 else t.nextF, nextS := if last then 0 else t.nextS + 1,
             jobs := t.jobs.filter fun p => t.nextF ≤ p.1 / 256 }
  (s.openCard n (wordAt t.rec' 6) t.nextF t.nextS false (t.tNeed t.nextF t.nextS))

/-- The team of an act that has just been accepted is placed at once where it fits (R332 step 3). -/
def State.placeAct (s : State) (n : Nat) : State :=
  match (s.stream n).acts.getLast? with
  | some a => if (tget s.cards a.card).any fun k => k.place != .placed && !k.overflow && !(s.ctx k.ctx).away
      then s.placeTeams a.card 1 else s
  | none => s

/-- ACT_START (R332, R333, R338). (DEDUCED: log 9) -/
def execActStart (stream : Nat) (s : State) : Host.Outcome State Fault Refusal :=
  if s.actDue (s.stream stream) then .next ((s.startAct stream).placeAct stream) else .next s

/-! ### The end of acts and output cards (R334, R335, R340) -/

/-- No act, output card or output card that is due holds a core of a cluster. -/
def State.coreUnused (s : State) (cl i : Nat) : Bool :=
  !s.streams.any fun p => odCluster p.2.odesc == cl && (srCores p.2.rec').contains i
    && (!p.2.acts.isEmpty || p.2.nextOutput.isSome)

/-- Flips back, on the cores of a stream that nothing holds any more (R334 step 3). (DESIGN CHOICE: log 17) (DESIGN
CHOICE: log 44) -/
def State.flipsBack (s : State) (n : Nat) : State :=
  let t := s.stream n
  let cl := odCluster t.odesc
  (srCores t.rec').foldl (fun s i =>
    if s.coreUnused cl i then s.requestFlip (cl * 8 + i) (1 - srBank t.rec') else s) s

/-- A CODE that does not miss a strip: OK or RETRIED_OK. -/
def codeGood (c : Nat) : Bool := c == 0 || c == 3

/-- An open card of a stream has retired: the act's slot is converted and its halos filled, or the output card's slot is
ready; a bad CODE misses the strip. (DESIGN CHOICE: log 44) -/
def State.closeCard (s : State) (n : Nat) (a : OpenAct) (code : Nat) : State :=
  let t := s.stream n
  let d := t.odesc
  let g := t.running a.frame a.strip
  let bad := !codeGood code || t.missed.contains g
  let s := s.updStream n fun t => { t with acts := t.acts.filter fun o => o.card != a.card }
  let s := if !codeGood code then s.missStrip n g else s
  let ready := fun s : State => s.updStream n fun t =>
    if (tget t.slots g).isNone then { t with slots := tset t.slots g .ready } else t
  let s :=
    if a.output then (if bad then s else ready s)
    else
      let s := if !bad && srUp t.rec' == 0 then ready (s.convertStrip d g a.strip) else s
      let s := s.fillHalos d g a.strip
      if !bad && srUp t.rec' != 0 then s.updStream n fun t => { t with outputs := t.outputs ++ [g] } else s
  (s.flipsBack n).settleStream n

/-- A retired card of a stream that the Ringmaster has still to close. -/
def Stream.nextClosed (t : Stream) : Option (OpenAct × Nat) := t.acts.findSome? fun a => a.closed.map fun c => (a, c)

/-- ACT_RETIRE (R334; for an output card R305). -/
def execActRetire (stream : Nat) (s : State) : Host.Outcome State Fault Refusal :=
  match (s.stream stream).nextClosed with
  | some (a, c) => .next (s.closeCard stream a c)
  | none => .next s

/-- OUTPUT_CARD_LAUNCH (R335). -/
def execOutputCardLaunch (stream : Nat) (s : State) : Host.Outcome State Fault Refusal :=
  let t := s.stream stream
  match t.nextOutput with
  | none => .next s
  | some g =>
    let ns := max (odNS t.odesc) 1
    let s := s.updStream stream fun t => { t with outputs := t.outputs.erase g }
    .next ((s.openCard stream (srUp t.rec') (g / ns) (g % ns) true (t.tCons (g / ns) (g % ns))).placeAct stream)

/-- An act whose card is open at t_need (R340), unless all that is left is the end of a team whose threads have ended
(R334). -/
def State.abandonDue (s : State) (t : Stream) (a : OpenAct) : Bool :=
  !a.output && !a.abandoned && a.closed.isNone && decide (t.tNeed a.frame a.strip ≤ s.ns) && s.cardRuns a.card

/-- The first act of a stream to abandon. -/
def State.nextAbandon (s : State) (t : Stream) : Option OpenAct := t.acts.find? (s.abandonDue t)

/-- An act is abandoned (R340): its card is killed, its rasteriser discards what is left, the strip is missed. -/
def State.abandonAct (s : State) (n : Nat) (a : OpenAct) : State :=
  let t := s.stream n
  let s := s.updStream n fun t => { t with acts := t.acts.map fun o => if o.card = a.card then { o with abandoned := true } else o }
  let s := (s.killCard a.card fun o => { o with deadlineMiss := true }).missStrip n (t.running a.frame a.strip)
  let cl := odCluster t.odesc
  match (s.cluster cl).raster with
  | some r => if a.team = some r.team then s.rasterEnd cl r else s
  | none => s

/-- ACT_ABANDON (R340). -/
def execActAbandon (stream : Nat) (s : State) : Host.Outcome State Fault Refusal :=
  match s.nextAbandon (s.stream stream) with
  | some a => .next (s.abandonAct stream a)
  | none => .next s

end Sys2Proof.Machine
end

