-- ==== Sys2Proof/Machine/Output.lean ====
section
/-! DEFINITION. The consumers of strips (R320, R321, R341): encoder sessions and display serialisers, and the links of the
display outputs (R368). -/

namespace Sys2Proof.Machine

/-- A stream's timeline advances by one (R320, R321). -/
def State.streamTick (s : State) (n : Nat) : State :=
  let c := (s.stream n).ctx
  s.setTimeline c (0x3000 + n) (s.timeline c (0x3000 + n) + 1)

/-- What is known of strips before a running number is dropped: their consumer has taken them. That a strip was missed is
known as long as a card of it is open, so that it counts once (R342). -/
def Stream.forget (t : Stream) (g : Nat) : Stream :=
  let open' := t.acts.map fun a => t.running a.frame a.strip
  { t with slots := t.slots.filter fun p => g ≤ p.1, missed := t.missed.filter fun x => decide (g ≤ x) || open'.contains x }

/-! ### Encoders (R320) -/

/-- Tile rows of a frame. -/
def codedRows (d : List Word) : Nat := ceilDiv (odOH d) 64

/-- States of the output slots of the encoder's next tile row; none while one is neither ready nor missed. -/
def Stream.rowSlots (t : Stream) : Option (List SlotState) :=
  let d := t.odesc
  allSome (((List.range (odNS d)).filter fun x => x * odH d / 64 == t.encRow).map fun x => tget t.slots (t.running t.encF x))

/-- The frame is to be coded as a key frame. (DESIGN CHOICE: log 45) -/
def Stream.keyFrame (t : Stream) : Bool :=
  let k := bits (wordAt t.odesc 3) 47 32
  t.encForceKey || t.encF == t.firstf.toNat || t.encF == 0 || (k != 0 && t.encF % k == 0)

/-- Bytes written into the bitstream ring from a running count on, by parts. -/
def State.ringWrite (s : State) (ctx : Nat) (base : Word) (size : Nat) : Nat → Nat → List Byte → Option State
  | 0, _, _ => some s
  | k + 1, at', bs =>
    if bs.isEmpty then some s
    else
      let n := min bs.length (size - at' % size)
      match s.agentWrite ctx (base + wd (at' % size)) true (bs.take n) with
      | some s => s.ringWrite ctx base size k (at' + n) (bs.drop n)
      | none => none

/-- The words of a frame record (R320). -/
def frameRecord (f start len skip : Nat) (dropped key : Bool) : List Word :=
  [wd f, wd start, wd (len % 2 ^ 32), wd (skip % 256 * 256 + boolNat dropped * 2 + boolNat key)]

/-- The parts of a temporal unit (R320): the delimiter, a sequence header on a key frame, and one frame OBU, its header and
one tile group for each tile row. (DESIGN CHOICE: log 45) -/
def Stream.unitParts (t : Stream) : List CodedPart :=
  let d := t.odesc
  let w := wordAt d
  [.delimiter] ++ (if t.keyFrame then [.sequenceHeader (odOW d) (odOH d) (odOFMT d == 0)] else [])
    ++ .frameHeader t.keyFrame (bits (w 3) 55 48) (bits (w 3) 1 0) :: (List.range (codedRows d)).map .tileGroup

/-- The bytes of one part of a temporal unit: at least one. -/
def partBytes (use : Nat) (p : CodedPart) : List Byte :=
  (List.range ((Config.av1Length use p).toNat + 1)).map (Config.av1Byte use p)

/-- A temporal unit. (DESIGN CHOICE: log 45) -/
def State.temporalUnit (s : State) (t : Stream) : List Byte := t.unitParts.flatMap (partBytes s.freeCtr)

/-- The reconstructed frame is kept at REFBASE, which holds two. (DESIGN CHOICE: log 45) -/
def State.keepReference (s : State) (t : Stream) : Option State :=
  let d := t.odesc
  let frame := odOW d * odOH d * 3 / (if odOFMT d = 0 then 1 else 2)
  s.agentWrite t.ctx (wordAt d 7 + wd (t.encF % 2 * frame)) true ((List.range frame).map (Config.referenceByte s.freeCtr))

/-- A record of an encoder whose write could not be made. -/
def State.encoderRecord (s : State) (n : Nat) (t : Stream) (a : Word) : State :=
  s.engineRecord t.ctx 0 (wd (0x3000 + n)) (odCluster t.odesc) 0x0D false false a 0

/-- The temporal unit of a frame is written, or the frame dropped when the ring has no room for it; then its record.
(DESIGN CHOICE: log 45) -/
def State.endFrame (s : State) (n skip : Nat) : State :=
  let t := s.stream n
  let d := t.odesc
  let size := bits (wordAt d 5) 31 0
  let unit := s.temporalUnit t
  let len := unit.length
  let full := decide (t.bsrd.toNat + size < t.bswr.toNat + len)
  let written := if full then none else s.ringWrite t.ctx (wordAt d 4) size (len / max size 1 + 2) t.bswr.toNat unit
  let dropped := written.isNone
  let s := match written with
    | some u => (u.keepReference t).getD (u.encoderRecord n t (wordAt d 7))
    | none => if full then s else s.encoderRecord n t (wordAt d 4)
  let rec' := frameRecord t.encF t.bswr.toNat (if dropped then 0 else len) skip dropped (t.keyFrame && !dropped)
  let at' := wordAt d 6 + wd (32 * (t.frames.toNat % bits (wordAt d 5) 63 32))
  let s := ((s.agentWrite t.ctx at' true (wordsBytes rec')).getD (s.encoderRecord n t at')).useFree
  (s.updStream n fun t =>
    { t with bswr := if dropped then t.bswr else t.bswr + wd len, frames := t.frames + 1, encF := t.encF + 1, encRow := 0,
             encSkip := 0, encForceKey := dropped }.forget (t.running (t.encF + 1) 0)).streamTick n

/-- The parts of a line of an output slot: the pixels, or the Y line and the Cb/Cr line (R303). -/
def lineParts (d : List Word) (g y : Nat) : List (Nat × Nat) :=
  match odOFMT d with
  | 2 => [(outputLoc d g (4 * odOW d * y), 4 * odOW d)]
  | f =>
    let row := odOW d * (if f = 0 then 2 else 1)
    [(outputLoc d g (row * y), row), (outputLoc d g (row * odH d + row * (y / 2)), row)]

/-- The lines of the ready slots of the encoder's next tile row, which the encoder reads (R320). -/
def Stream.rowParts (t : Stream) : List (Nat × Nat) :=
  let d := t.odesc
  let strips := (List.range (odNS d)).filter fun x => x * odH d / 64 == t.encRow && tget t.slots (t.running t.encF x) == some .ready
  strips.flatMap fun x => (List.range (min (odH d) (odOH d - x * odH d))).flatMap fun y => lineParts d (t.running t.encF x) y

/-- The encoder reads its next tile row: banks wake, errors are met (R151, R185). -/
def State.readRow (s : State) (n : Nat) : State := (s.stream n).rowParts.foldl (fun s p => s.noteRead p.1 p.2) s

/-- A word of the row has an uncorrectable error that no reader has met: its slot becomes bad first (R306). -/
def State.rowFlawed (s : State) (n : Nat) : Bool :=
  (s.stream n).rowParts.any fun p => (flawsIn s.flaws p.1 p.2).any fun f => f.2 == 2

/-- An encoder can code its next tile row. -/
def State.encoderMoves (s : State) (n : Nat) : Bool :=
  let t := s.stream n
  t.state == 1 && odCons t.odesc == 0 && t.rowSlots.isSome

/-- ENCODER_TILE_ROW (R320, R341): a row with a missed strip is coded as skip, except in a key frame. A slot in which the
read finds an uncorrectable error is bad before the row is coded (R306). -/
def execEncoderTileRow (stream : Nat) (s : State) : Host.Outcome State Fault Refusal :=
  let t := s.stream stream
  match t.rowSlots with
  | none => .next s
  | some xs =>
    if !s.encoderMoves stream then .next s
    else if s.rowFlawed stream then .next (s.readRow stream)
    else
      let s := s.readRow stream
      let skip := t.encSkip + if xs.any (fun x => x != .ready) && !t.keyFrame then 1 else 0
      if t.encRow + 1 < codedRows t.odesc then
        .next (s.updStream stream fun t => { t with encRow := t.encRow + 1, encSkip := skip })
      else .next (s.endFrame stream skip)

/-- BSRD of a stream is raised (R298, R320). -/
def State.writeBsrd (s : State) (n : Nat) (w : Word) : State := s.updStream n fun t => { t with bsrd := monoMax t.bsrd w }

/-- BSRD_WRITE (R298, R320). -/
def execBsrdWrite (stream : Nat) (w : Word) (s : State) : Host.Outcome State Fault Refusal :=
  if stream < 64 then .next (s.writeBsrd stream w) else .next s

/-! ### Displays (R321, R343) -/

/-- The first frame of a stream that its display does not show: the first whose strip-0 act was not started; none while
it is admitted (R343). -/
def Stream.blankFrom (t : Stream) : Option Nat :=
  if t.state = 1 then none else some (if t.nextS = 0 then t.nextF else t.nextF + 1)

/-- A display stream still has a frame to show. -/
def Stream.shows (t : Stream) : Bool := t.blankFrom.all fun f => t.lineF < f

/-- The stream that drives a display output: one in use, else one whose last frame is still being sent.
(DESIGN CHOICE: log 46) -/
def State.displayStream (s : State) (o : Nat) : Option Nat :=
  let mine := s.streams.filter fun p => odCons p.2.odesc == o + 1
  match mine.find? fun p => p.2.state != 0 with
  | some p => if p.2.shows then some p.1 else none
  | none => (mine.find? fun p => p.2.shows).map Prod.fst

/-- The strip and the line of it at which a display is: behind the last active line, that line's end. (DESIGN CHOICE:
log 46) -/
def Stream.lineAt (t : Stream) : Nat × Nat :=
  let strip := min t.line (odOH t.odesc - 1) / odH t.odesc
  (strip, t.line - strip * odH t.odesc)

/-- The time has come at which the first pixel of the next active line is sent, or the last one ends, in device time. -/
def State.lineDue (s : State) (t : Stream) : Bool :=
  let d := t.odesc
  let pclk := bits (wordAt d 9) 47 0
  let late : Int := (s.ns : Int) - t.tCons t.lineF t.lineAt.1
  pclk != 0 && decide (((t.lineAt.2 * bits (wordAt d 8) 63 48 * 1000000000 : Nat) : Int) ≤ late * pclk)

/-- A display output sends a line. -/
def State.lineMoves (s : State) (o : Nat) : Bool := (s.displayStream o).any fun n => s.lineDue (s.stream n)

/-- The next active line of a stream is read from its slot as it stands and sent. -/
def State.sendLine (s : State) (output n : Nat) : State :=
  let t := s.stream n
  let ps := lineParts t.odesc (t.running t.lineF t.lineAt.1) t.lineAt.2
  let s := ps.foldl (fun s p => s.noteRead p.1 p.2) s
  let s := { s with package := { s.package with
    sent := tset s.package.sent output (t.lineF, t.line, ps.flatMap fun p : Nat × Nat => s.readLoc p.1 p.2) } }
  s.updStream n fun t => { t with line := t.line + 1 }

/-- The last active line of a frame has ended: the stream's timeline rises, and the next frame is to be shown. -/
def State.endShown (s : State) (n : Nat) : State :=
  (s.updStream n fun t => { t with line := 0, lineF := t.lineF + 1 }.forget (t.running (t.lineF + 1) 0)).streamTick n

/-- DISPLAY_LINE (R321, R341): a line is sent, or the last one of a frame ends. (DESIGN CHOICE: log 46) -/
def execDisplayLine (output : Nat) (s : State) : Host.Outcome State Fault Refusal :=
  if !s.lineMoves output then .next s
  else
    match s.displayStream output with
    | none => .next s
    | some n => .next (if (s.stream n).line < odOH (s.stream n).odesc then s.sendLine output n else s.endShown n)

/-! ### Display links (R368) -/

/-- A stream is admitted on a display output. -/
def State.outputUsed (s : State) (o : Nat) : Bool := s.streams.any fun p => p.2.state != 0 && odCons p.2.odesc == o + 1

/-- DP_LINK_LOSS (R368). -/
def execDpLinkLoss (output : Nat) (s : State) : Host.Outcome State Fault Refusal :=
  if 2 ≤ output then .next s
  else .next (s.updDp output fun p => (p &&& 0xEF) ||| if s.outputUsed output then 8 else 0)

/-- HOT_PLUG (R368): what an attached sink accepts is a free value; a removed one accepts nothing, and its removal under
an admitted stream is a loss. -/
def execHotPlug (output : Nat) (present : Bool) (s : State) : Host.Outcome State Fault Refusal :=
  if 2 ≤ output then .next s
  else if present then
    .next (s.useFree.updDp output fun p => (p &&& 0x18) ||| 1 ||| (Config.sinkAccepts s.freeCtr).zeroExtend 8 <<< 5)
  else .next (s.updDp output fun p => (p &&& 8) ||| if s.outputUsed output then 8 else 0)

/-- DP_LINK_TRAINED (R368). -/
def execDpLinkTrained (output : Nat) (s : State) : Host.Outcome State Fault Refusal :=
  if output < 2 && s.outputUsed output && (tgetD s.package.dpstat output 0).getLsbD 0 then
    .next (s.updDp output fun p => p ||| 0x10)
  else .next s

end Sys2Proof.Machine
end

