-- ==== Sys2Proof/Machine/Swap.lean ====
section
/-! DEFINITION. Full context swaps and migrations (R277, R12, R158, R184, R198, R230, R240), time slices (R269), writes of
the ownership map (R171) and the failure of a part (R278). -/

namespace Sys2Proof.Machine

/-! ### Saving (R277) -/

/-- The teams of a context that have not retired. -/
def State.teamsIn (s : State) (ctx : Nat) : List Nat := (s.teams.filter fun p => p.2.ctx == ctx && !p.2.gone).map Prod.fst

/-- The threads of a context. -/
def State.threadsIn (s : State) (ctx : Nat) : Tbl Thread :=
  s.threads.filter fun p => (tget s.teams p.2.team).any fun t => t.ctx == ctx

/-- A group holds threads of a context. -/
def State.groupIn (s : State) (ctx : Nat) (g : Group) : Bool := (g.threads.head?.bind s.teamOf).any fun t => t.ctx == ctx

/-- The cores and banks of a context: those assigned to it, and those that its threads are in. -/
def State.placesOf (s : State) (ctx : Nat) : List (Nat × Nat) :=
  ((s.cores.flatMap fun c => (c.2.banksOf ctx).map fun b => (c.1, b))
    ++ (s.threadsIn ctx).map fun p => (sidCore p.1, sidBank p.1)).eraseDups

/-- A context can be saved now: no latch window, hint run or stop holds its cores, whichever context the group is of (R20),
and its accesses in flight are performed, except those that wait for a page. (DESIGN CHOICE: log 48) -/
def State.swapReady (s : State) (ctx : Nat) : Bool :=
  (s.placesOf ctx).all (fun p =>
    !(s.core p.1).stop.stopped && (s.core p.1).holder.isNone)
  && !s.ops.any (fun p => p.2.ctx == ctx && !p.2.logged && !p.2.stuck) && !s.posts.any fun p => p.2.ctx == ctx

/-- A thread as its slot saves it: one of a group is at the group's PC. -/
def State.savedThread (s : State) (th : Thread) : Thread :=
  match th.cond with
  | .inGroup g => { th with pc := ((tget s.groups g).map fun x => x.pc).getD th.pc, cond := .filed, b0 := none, b1 := none }
  | _ => th

/-- A bin with ages for its filing clocks. -/
def Bin.aged (b : Bin) (now : Nat) : Bin := { b with filed := b.filed.map fun x => (x.1, now - x.2) }

/-- A bin with the filing clocks of its ages. -/
def Bin.unaged (b : Bin) (now : Nat) : Bin := { b with filed := b.filed.map fun x => (x.1, now - x.2) }

/-- A team's queue as it is saved (R230, R240): `mpoly` is unstarted again, `miter` at its last iteration boundary, their
scratch tiles are given up. -/
def BruinQ.parkAt (q : BruinQ) : BruinQ :=
  let q := { q with tileWait := none }
  match q.cmds.head?.map BEntry.cmd, q.prog with
  | some (.mpoly _), some _ => { q with prog := none }
  | some (.miter _ _ _), some p => { q with prog := some { p with step := 0, mats := [] }, parked := true }
  | _, _ => q

/-- The live segments of a context's allocations: cluster and segment. -/
def State.liveSegs (s : State) (ctx : Nat) : List (Nat × Nat) :=
  (s.teamsIn ctx).flatMap fun i =>
    match tget s.teams i with
    | none => []
    | some t => ((List.range t.allocSegs).map fun j => (t.core / 8, t.allocOff / 4096 + j)).filter fun p => s.segLive p.1 p.2

/-- The words of a slot that hold live state (R28). -/
def Thread.liveWords (th : Thread) (nreg : Nat) : List Nat :=
  List.range 16 ++ ((List.range nreg).filter fun i => !th.vdead.getLsbD i).map (16 + ·)
    ++ (th.x.zipIdx.filter fun x => !x.1.dead).map fun x => 16 + nreg + x.2

/-- Bytes of Bruin state that a full swap saves of a team (R277): its tiles of 64 KiB, its coefficients, its unstarted
commands with their snapshots, its issue latches, and tl0 with the iteration state. (DESIGN CHOICE: log 48) -/
def Team.bruinBytes (t : Team) : Nat :=
  65536 * t.tiles.length + 4 * t.cf.toList.length
    + t.bruin.cmds.foldl (fun n e => n + 8 + 192 * e.snaps.length + 4 * e.cf.length) 0
    + 16 * (t.cv.toList.filter fun c => c.latch.isSome).length
    + 8 + ((t.bruin.prog.map fun p => 8 + 4 * p.nums.length).getD 0)

/-- Bytes of a team's own state: its launch facts and queues, rendezvous and convergence registers. (DESIGN CHOICE:
log 48) -/
def Team.ownBytes (t : Team) : Nat :=
  8 * (t.k.toList.length + t.rv.toList.length + t.cv.toList.length)
    + t.w.toList.foldl (fun n q => n + 16 + 16 * q.entries.length) 0

/-- Bytes of a team's saved state: the live words of its slots, each with its PC and flags, its live segments, its own
state and that of its Bruin queue. (DESIGN CHOICE: log 48) -/
def State.teamBytes (s : State) (i : Nat) (t : Team) : Nat :=
  let slots := s.threads.filter fun p => p.2.team == i
  let segs := (List.range t.allocSegs).filter fun j => s.segLive (t.core / 8) (t.allocOff / 4096 + j)
  slots.foldl (fun n p => n + 24 + 8 * (p.2.liveWords t.hdr.nreg).length) 0 + 4096 * segs.length + t.ownBytes + t.bruinBytes

/-- Bytes of a context's own saved state: the valid or loading entries of its descriptor table (R208), and the handles
in its parts of the deques (R198). (DESIGN CHOICE: log 48) -/
def State.ctxBytes (s : State) (ctx : Nat) : Nat :=
  200 * (s.ctx ctx).desc.length
    + 8 * (s.placesOf ctx).foldl (fun n p => n + (vget (s.core p.1).deque p.2 []).length) 0

/-- Bytes of saved state of a context: its own, then that of each team. (DESIGN CHOICE: log 48) -/
def State.savedSizes (s : State) (ctx : Nat) : List (Option Nat × Nat) :=
  (none, s.ctxBytes ctx) :: (s.teamsIn ctx).filterMap fun i => (tget s.teams i).map fun t => (some i, s.teamBytes i t)

/-- The units of shadow storage that saved contexts use. -/
def State.shadowUsed (s : State) : List Nat :=
  s.ctxs.flatMap fun p => (p.2.saved.map fun v => (usedUnits v.units 0 v.bytes).map Prod.fst).getD []

/-- The free shadow storage of a swap (R277): the banks of its cores that hold no thread and no other saved state, then
the granules of KIND 11 of its partition. (DESIGN CHOICE: log 48) -/
def State.shadowUnits (s : State) (ctx : Nat) : List (Nat × Nat) :=
  let cores := ((s.placesOf ctx).map Prod.fst).eraseDups
  let banks := cores.flatMap fun c => ([0, 1].filter fun b =>
    !s.threads.any fun p => sidCore p.1 == c && sidBank p.1 == b).map fun b => (2 * c + b, 12 * 4096 * 32)
  let granules := (List.range 24).flatMap fun cl =>
    if (s.ctx ctx).part.getLsbD cl then
      (((s.cluster cl).owner.filter fun g => g.2.toNat / 16384 == 3).map fun g => (1024 + 512 * cl + g.1, 65536)) else []
  (banks ++ granules).filter fun u => !s.shadowUsed.contains u.1

/-- What a full swap saves of a context. (DESIGN CHOICE: log 48) -/
def State.savedOf (s : State) (ctx : Nat) : Saved :=
  let ps := s.placesOf ctx
  let segs := s.liveSegs ctx
  { threads := (s.threadsIn ctx).map fun p => (p.1, s.savedThread p.2),
    bins := ps.flatMap fun p => (vget (s.core p.1).bins p.2 []).map fun b => (p.1, p.2, b.aged (s.coreClk p.1)),
    parts := ps.filterMap fun p =>
      if (vget (s.core p.1).deque p.2 []).isEmpty then none else some (p.1, p.2, vget (s.core p.1).deque p.2 []),
    segs := segs,
    cells := s.mem.filter fun c => (segsOf c.1 1).any fun q => segs.contains q,
    flaws := s.flaws.filter fun f => (segsOf (8 * f.1) 1).any fun q => segs.contains q,
    units := s.shadowUnits ctx,
    sizes := s.savedSizes ctx }

/-- What does not fit shadow storage goes to the context's CSAVE area in LP6; the layout there is not given.
(DESIGN CHOICE: log 48) -/
def State.spill (s : State) (ctx : Nat) (v : Saved) : State :=
  let excess := v.bytes - v.units.foldl (fun n u => n + u.2) 0
  let a := (s.ctx ctx).csave.toNat
  if excess = 0 ∨ 2 ^ 40 < a + excess then s
  else (s.replaceMem a ((List.range excess).map (Config.spillByte s.freeCtr))).useFree

/-- A core's bank is empty: no bins, no part of the deque, no power block on. -/
def CoreSt.clearBank (c : CoreSt) (bank : Nat) : CoreSt :=
  { c with bins := vset c.bins bank [], deque := vset c.deque bank [], power := c.power.filter fun p => p.1 / 384 != bank }

/-- A context of the same partition and priority waits for its turn: its own slice has ended, or it has open cards and no
bank. (DEDUCED: log 49) -/
def State.waitsFor (s : State) (ctx y : Nat) : Bool :=
  let c := s.ctx ctx
  let d := s.ctx y
  y != ctx && d.part == c.part && d.maxprio == c.maxprio
    && ((d.saved.isSome && d.sliced) || (d.saved.isNone && s.cards.any (fun p => p.2.ctx == y && s.cardOpen p.1)
        && !s.cores.any fun p => !(p.2.banksOf y).isEmpty))

/-- The cores and banks that a saved state comes back to. -/
def Saved.places (v : Saved) : List (Nat × Nat) :=
  (v.threads.map (fun p => (sidCore p.1, sidBank p.1)) ++ v.parts.map fun p => (p.1, p.2.1)).eraseDups

/-- The banks that a context holds are those that another's saved state came from, or more (R12). (DEDUCED: log 49) -/
def State.suits (s : State) (ctx y : Nat) : Bool :=
  (s.ctx y).saved.all fun v => v.places.all fun p => (s.core p.1).bankCtx p.2 == some ctx

/-- The context whose turn is next: of those that wait and can use the banks, the one whose last turn began first, then the
lower number. (DEDUCED: log 49) -/
def State.nextTurn (s : State) (ctx : Nat) : Option Nat :=
  minBy (fun y => (s.ctx y).turnFrom) ((List.range 64).filter fun y => s.waitsFor ctx y && s.suits ctx y)

/-- A core's banks of one context become another's. -/
def CoreSt.handBank (c : CoreSt) (x y : Nat) : CoreSt :=
  { c with bankctx := [0, 1].foldl (fun (b : BitVec 16) k =>
      if c.bankCtx k = some x then
        (b &&& ~~~(BitVec.ofNat 16 (63 * 256 ^ k))) ||| BitVec.ofNat 16 (y % 64 * 256 ^ k) else b) c.bankctx }

/-- The banks of a context whose slice has ended go to the context whose turn is next (R269). (DEDUCED: log 49) -/
def State.handBanks (s : State) (ctx : Nat) : State :=
  match s.nextTurn ctx with
  | none => s
  | some y =>
    ({ s with cores := tmap s.cores fun _ c => c.handBank ctx y }).updCtx y fun c => { c with turnFrom := s.ns }

/-- A context is saved and leaves its banks; every latch of its cores is invalid (R18). (DESIGN CHOICE: log 48) -/
def State.swapOut (s : State) (ctx : Nat) : State :=
  let s := (s.groups.filter fun p => s.groupIn ctx p.2).foldl (fun s p => s.closePart p.1) s
  let v := s.savedOf ctx
  let ps := s.placesOf ctx
  let s := v.threads.foldl (fun s p => s.leaveGroup p.1) s
  let s := { s with threads := s.threads.filter fun p => (tget v.threads p.1).isNone }
  let s := ps.foldl (fun s p => s.updCore p.1 fun c => c.clearBank p.2) s
  let s := v.segs.foldl (fun s p => s.killSeg p.1 p.2) s
  let s := (s.teamsIn ctx).foldl (fun s i => s.updTeam i fun t => { t with bruin := t.bruin.parkAt }) s
  let s := ((ps.map Prod.fst).eraseDups).foldl (fun s c => s.dropCoreLatches c) s
  let s := s.spill ctx v
  let s := s.updCtx ctx fun c =>
    { c with saved := some v, swapping := false, capSwaps := if c.capturing then c.capSwaps + 1 else c.capSwaps }
  if (s.ctx ctx).sliced then s.handBanks ctx else s

/-- A stream of a context is admitted or stopping (R330). -/
def State.inStream (s : State) (ctx : Nat) : Bool := s.streams.any fun p => p.2.ctx == ctx && p.2.state != 0

/-- A full swap begins: issue stops, and the state is saved once its accesses are performed. -/
def State.beginSwap (s : State) (ctx : Nat) : State :=
  if 64 ≤ ctx || (s.ctx ctx).saved.isSome || s.inStream ctx then s
  else if s.swapReady ctx then s.swapOut ctx
  else s.updCtx ctx fun c => { c with swapping := true }

/-- CONTEXT_SWAP_OUT (R277). (DESIGN CHOICE: log 48) -/
def execContextSwapOut (ctx : Nat) (s : State) : Host.Outcome State Fault Refusal := .next (s.beginSwap ctx)

/-- A swap that has begun can save now. -/
def State.swapMoves (s : State) (ctx : Nat) : Bool := (s.ctx ctx).swapping && !s.inStream ctx && s.swapReady ctx

/-! ### Time slices (R269) -/

/-- A context's turn is over while another waits: it has held its banks for its slice (R269), and no stream of it is in use
(R330). -/
def State.sliceOver (s : State) (ctx : Nat) : Bool :=
  let c := s.ctx ctx
  decide (ctx < 64) && !c.away && !s.inStream ctx && s.cores.any (fun p => !(p.2.banksOf ctx).isEmpty)
    && decide (c.turnFrom + c.sliceNs ≤ s.ns) && (s.nextTurn ctx).isSome

/-- TIME_SLICE_EXPIRY (R269, R330): the context's turn is over; it is swapped out when another waits for its banks.
(DEDUCED: log 49) -/
def execTimeSliceExpiry (ctx : Nat) (s : State) : Host.Outcome State Fault Refusal :=
  if s.sliceOver ctx then .next ((s.updCtx ctx fun c => { c with sliced := true }).beginSwap ctx) else .next s

/-! ### Restoring (R277) -/

/-- Where a restore puts a core: itself, or the core it migrates to. -/
def movedCore (move : List (Nat × Nat)) (c : Nat) : Nat := ((move.find? fun p => p.1 == c).map Prod.snd).getD c

/-- Where a restore puts a slot: the same bank, lane and slot number. -/
def movedSid (move : List (Nat × Nat)) (sid : Nat) : Nat := movedCore move (sidCore sid) * 4096 + sid % 4096

/-- Stamps of a team's queue entries. -/
def Team.stamps (t : Team) : List Nat := t.w.toList.flatMap fun q => q.entries.map QEntry.stamp

/-- A team may leave its core (R158): CW of its bank has reached its stamps, and its logged accesses are done. -/
def State.mayLeave (s : State) (tid : Nat) (t : Team) : Bool :=
  t.stamps.all (fun n => decide (n ≤ (s.core t.core).cw t.bank)) && (s.loggedOf tid).isEmpty

/-- The context owns the granules of a team's allocation in a cluster. -/
def State.ownsAlloc (s : State) (t : Team) (cl : Nat) : Bool :=
  t.allocSegs == 0 || (List.range ((t.allocOff / 4096 + t.allocSegs - 1) / 16 - t.allocOff / 65536 + 1)).all fun i =>
    (s.cluster cl).granuleOf t.ctx (t.allocOff / 65536 + i)

/-- A saved context can be restored: the banks it goes to are assigned to it and empty, in its partition, no two cores go
to one, its granules are owned, its tiles free, and what migrates may leave. (DEDUCED: log 49) -/
def State.restorable (s : State) (ctx : Nat) (v : Saved) (move : List (Nat × Nat)) : Bool :=
  let ps := v.places
  let cores := (ps.map Prod.fst).eraseDups
  let ts := (s.teamsIn ctx).filterMap fun i => (tget s.teams i).map fun t => (i, t)
  let cls := (ts.map fun t => movedCore move t.2.core / 8).eraseDups
  cores.all (fun c => (cores.filter fun d => movedCore move d == movedCore move c).length == 1 && movedCore move c < 192)
  && ps.all (fun p =>
      let c := movedCore move p.1
      (s.core c).bankCtx p.2 == some ctx && (s.ctx ctx).part.getLsbD (c / 8)
        && !s.threads.any fun q => sidCore q.1 == c && sidBank q.1 == p.2)
  && v.parts.all (fun p => decide (p.2.2.length ≤ (s.core (movedCore move p.1)).partSize p.2.1))
  && ts.all (fun t => (movedCore move t.2.core == t.2.core || s.mayLeave t.1 t.2) && s.ownsAlloc t.2 (movedCore move t.2.core / 8))
  && cls.all fun cl => decide (s.tilesUsed cl
      + ((ts.filter fun t => movedCore move t.2.core / 8 == cl).foldl (fun n t => n + t.2.tiles.length) 0) ≤ 64)

/-- A location of a slice moves with its cluster. -/
def movedPlace (d : Nat → Nat → Nat) (p : Nat) : Nat :=
  match sliceOf p with
  | some (cl, off) => sliceLoc (d cl off) off
  | none => p

/-- The cluster that a saved segment is restored in: that of its team. -/
def State.movedSeg (s : State) (ctx : Nat) (move : List (Nat × Nat)) (p : Nat × Nat) : Nat :=
  ((s.teamsIn ctx).findSome? fun i => (tget s.teams i).bind fun t =>
    if t.core / 8 = p.1 && t.allocOff / 4096 ≤ p.2 && p.2 < t.allocOff / 4096 + t.allocSegs
    then some (movedCore move t.core / 8) else none).getD p.1

/-- A restored team's queue is served in its turn from now on: no pass passed it over while it was away (R225). -/
def BruinQ.back (q : BruinQ) (n : Nat) : BruinQ := { q with lastServed := min q.lastServed n, since := n }

/-- A team comes to its core. One that migrates: its stamps are 0, its commands' writes count on the new core. -/
def State.placeTeam (s : State) (move : List (Nat × Nat)) (tid : Nat) : State :=
  match tget s.teams tid with
  | none => s
  | some t =>
    let c := movedCore move t.core
    if c = t.core then s
    else
      let one := fun (q : State × List BEntry) (e : BEntry) =>
        match e.wnum with
        | none => (q.1, q.2 ++ [{ e with sid := movedSid move e.sid }])
        | some n =>
          let r := (q.1.completeWrite t.core t.bank n).issueWrite c t.bank
          (r.1, q.2 ++ [{ e with sid := movedSid move e.sid, wnum := some r.2 }])
      let q := t.bruin.cmds.foldl one (s, [])
      let place := movedPlace fun _ _ => c / 8
      let ray := fun (q : State × List Ray) (r : Ray) =>
        let x := (q.1.completeWrite t.core t.bank r.wnum).issueWrite c t.bank
        (x.1, q.2 ++ [{ r with sid := movedSid move r.sid, place := r.place.map place, wnum := x.2 }])
      let w := t.rays.rays.foldl ray (q.1, [])
      w.1.updTeam tid fun t =>
        { t with core := c, bruin := { t.bruin with cmds := q.2 }, rays := { t.rays with rays := w.2 },
                 w := t.w.map fun w => { w with entries := w.entries.map fun e => { e with stamp := 0 } } }

/-- The address of a slot's LOCAL private area (R265). -/
def CtxSt.localBase (c : CtxSt) (sid : Nat) : Word := c.locpool + wd (c.locsz * sid)

/-- The pages of the LOCAL private areas of slots that move, with where they go: all are read before any is written
(R277); a page that cannot be read has no contents to keep. (DESIGN CHOICE: log 48) -/
def State.localPages (s : State) (ctx : Nat) (moves : List (Nat × Nat)) : List (Word × List Byte) :=
  let c := s.ctx ctx
  (moves.filter fun m => m.1 != m.2).flatMap fun m =>
    (pageParts (c.localBase m.1).toNat (c.locsz / 4096 + 2) 0 c.locsz).filterMap fun p =>
      (s.agentRead ctx (c.localBase m.1 + wd p.1) false p.2).map fun bs => (c.localBase m.2 + wd p.1, bs)

/-- The LOCAL private areas of slots move with them (R277). -/
def State.moveLocals (s : State) (ctx : Nat) (moves : List (Nat × Nat)) : State :=
  let c := s.ctx ctx
  let s := (moves.filter fun m => m.1 != m.2).foldl (fun s m => s.agentTouch ctx (c.localBase m.1) false c.locsz) s
  (s.localPages ctx moves).foldl (fun s m => (s.agentWrite ctx m.1 false m.2).getD s) s

/-- A restored thread: one that waits in no bin of the save is filed, and one halted by a page fault reissues. -/
def State.wakeRestored (s : State) (filed : List Nat) (sid : Nat) : State :=
  match tget s.threads sid with
  | none => s
  | some th =>
    let nreg := ((tget s.teams th.team).map fun t => t.hdr.nreg).getD 0
    let s := s.touch sid (th.liveWords nreg)
    if th.cond = .halted .page ∨ (th.cond = .filed ∧ !filed.contains sid) then s.fileThread sid th.pc else s

/-- A saved context comes back. (DEDUCED: log 49) -/
def State.restore (s : State) (ctx : Nat) (v : Saved) (move : List (Nat × Nat)) : State :=
  let cl := s.movedSeg ctx move
  let s := s.updCtx ctx fun c =>
    { c with saved := none, sliced := false, turnFrom := s.ns, waiting := c.waiting.map fun r => { r with owner := r.owner.map (movedSid move) } }
  let s := { s with ops := tmap s.ops fun _ o =>
    if o.ctx = ctx && !o.logged then { o with sid := movedSid move o.sid, core := movedCore move o.core } else o }
  let s := v.segs.foldl (fun s p => s.wakeSeg (cl p) p.2) s
  let s : State := { s with mem := v.cells.foldl (fun m (c : Host.Cell) => memSet m (movedPlace (fun k off => cl (k, off / 4096)) c.1) c.2) s.mem,
                            flaws := v.flaws.foldl (fun fs (f : Nat × Nat) =>
                              tset fs (movedPlace (fun k off => cl (k, off / 4096)) (8 * f.1) / 8) f.2) s.flaws }
  let s := (s.teamsIn ctx).foldl (fun s i =>
    (s.placeTeam move i).updTeam i fun t => { t with bruin := t.bruin.back (s.cluster (t.core / 8)).bruinServed }) s
  let s : State := { s with threads := v.threads.foldl (fun ts (p : Nat × Thread) => tset ts (movedSid move p.1) p.2) s.threads }
  let s := v.bins.foldl (fun s b =>
    let c := movedCore move b.1
    let bin : Bin := { b.2.2 with filed := b.2.2.filed.map fun x : Nat × Nat => (movedSid move x.1, x.2) }
    let bin := bin.unaged (s.coreClk c)
    if bin.filed.isEmpty then s
    else s.updCore c fun k => { k with bins := vset k.bins b.2.1 (vget k.bins b.2.1 [] ++ [bin]) }) s
  let s := v.parts.foldl (fun s p => s.updCore (movedCore move p.1) fun k =>
    { k with deque := vset k.deque p.2.1 (p.2.2 ++ vget k.deque p.2.1 []) }) s
  let filed := v.bins.flatMap fun b => b.2.2.filed.map fun x => movedSid move x.1
  let s := s.moveLocals ctx (v.threads.map fun p => (p.1, movedSid move p.1))
  v.threads.foldl (fun s p => s.wakeRestored filed (movedSid move p.1)) s

/-- A context whose turn has come is restored to its places (R269). -/
def State.turnComes (s : State) (ctx : Nat) : Bool :=
  (s.ctx ctx).sliced && (s.ctx ctx).saved.any fun v => s.restorable ctx v []

/-- CONTEXT_RESTORE (R277): to the same cores, or by `move` to others in a migration. -/
def execContextRestore (ctx : Nat) (move : List (Nat × Nat)) (s : State) : Host.Outcome State Fault Refusal :=
  match (s.ctx ctx).saved with
  | none => .next s
  | some v => if s.restorable ctx v move then .next (s.restore ctx v move) else .next s

/-! ### The ownership map (R171) -/

/-- A granule holds something that keeps its entry. (DESIGN CHOICE: log 48) -/
def State.granuleHeld (s : State) (cl g : Nat) : Bool :=
  (s.allocations cl).any (fun u => decide (u.1 < g * 16 + 16) && decide (g * 16 < u.1 + u.2))
    || s.streams.any (fun p => p.2.holdsGranule cl g)
    || s.shadowUsed.contains (1024 + 512 * cl + g)

/-- A write of one entry of the ownership map. -/
def State.writeOwner (s : State) (cl g : Nat) (v : BitVec 16) : State :=
  let v := v &&& 0xC03F
  if 24 ≤ cl ∨ 512 ≤ g then s
  else if v ≠ tgetD (s.cluster cl).owner g 0 ∧ s.granuleHeld cl g then s.updCluster cl fun c => { c with ownrej := true }
  else s.updCluster cl fun c => { c with owner := if v = 0 then tdel c.owner g else tset c.owner g v }

/-- OWNERSHIP_WRITE (R171). -/
def execOwnershipWrite (cluster granule : Nat) (v : BitVec 16) (s : State) : Host.Outcome State Fault Refusal :=
  .next (s.writeOwner cluster granule v)

/-! ### The failure of a part (R278) -/

/-- A team is lost with a part: an act's card is over; any other, started as it is (R353), as after an uncorrectable
error: run again where its kernel is idempotent, subject to RETRY. (DESIGN CHOICE: log 50) -/
def State.loseTeam (s : State) (tid : Nat) (addr : Word) : State :=
  match tget s.teams tid with
  | none => s
  | some t =>
    if t.gone || t.killed then s
    else if t.act.isSome then
      (s.engineRecord t.ctx (s.cardId t) t.base (t.core / 8) 0x19 true false addr 0).killCard t.card fun o => { o with faulted := true }
    else s.uncorrectable tid addr

/-- The resident teams that a test accepts are lost. -/
def State.loseTeams (s : State) (p : Team → Bool) : State :=
  ((s.teams.filter fun q => !q.2.gone && (s.ctx q.2.ctx).saved.isNone && p q.2).map Prod.fst).foldl
    (fun s i => s.loseTeam i (wd (((tget s.teams i).map fun t => t.core / 8).getD 0 * 2 ^ 32))) s

/-- A cluster takes no new team until a spare replaces it (R278, R377). (DESIGN CHOICE: log 50) -/
def State.outOfService (s : State) (cl : Nat) : State := if 24 ≤ cl then s else s.updCluster cl fun c => { c with down := true }

/-- The chain entries in execution on a cluster's copy engine are frozen (R294). (DESIGN CHOICE: log 50) -/
def State.loseEngine (s : State) (cl : Nat) : State :=
  (List.range 64).foldl (fun s x => (List.range 64).foldl (fun s ch =>
    if (s.chain x ch).engine == cl && (s.chain x ch).run.isSome then s.freezeChain x ch 0x19 (wd (cl * 2 ^ 32)) 0 else s) s) s

/-- The reads in flight on an LP6 channel: their team, and where they read. (DESIGN CHOICE: log 50) -/
def State.channelReads (s : State) (ch : Nat) : List (Nat × Nat) :=
  s.ops.filterMap fun p =>
    if p.2.isLoad then (p.2.readPieces.find? fun q => channelOf q.place == some ch).map fun q => (p.2.team, q.place) else none

/-- A control core starts again: the packet in execution is executed again, from where it had come. (DESIGN CHOICE:
log 50) -/
def State.loseControl (s : State) (k : Nat) : State :=
  s.updCtl k fun c => { CtlCore.reset with code := c.code, lastQ := c.lastQ, fetchQ := c.fetchQ }

/-- A word of LP6 or of a live segment has an error (R185, R367); the bytes that an uncorrectable one leaves are free
values. -/
def State.wordError (s : State) (p : Nat) (fatal : Bool) : State :=
  let w := p / 8 * 8
  let held := decide (w < 2 ^ 40) || (sliceOf w).any fun q => s.segLive q.1 (q.2 / 4096) || s.isShadow q.1 q.2
  if !held then s
  else if fatal then
    { s with mem := writeMem s.mem w ((List.range 8).map (Config.flawByte s.freeCtr)), flaws := tset s.flaws (w / 8) 2 }.useFree
  else { s with flaws := tset s.flaws (w / 8) 1 }

/-- A thread has live state in a power block of its lane's bank (R275). -/
def State.inBlock (s : State) (core bank lane block : Nat) (p : Nat × Thread) : Bool :=
  sidCore p.1 == core && sidBank p.1 == bank && sidLane p.1 == lane && decide (p.2.cond ≠ .ended)
    && (p.2.liveWords (((tget s.teams p.2.team).map fun t => t.hdr.nreg).getD 0)).any fun i => (p.2.off + 8 * i) / 4096 == block

/-- An uncorrectable error in a power block of a register bank kills every team with live state in it: threads of its bank,
or saved state where the bank serves as shadow storage (R275). (DESIGN CHOICE: log 65) -/
def State.blockError (s : State) (core bank lane block : Nat) : State :=
  let ts := ((s.threads.filter (s.inBlock core bank lane block)).map fun p => p.2.team).eraseDups
  (ts.foldl (fun s t => s.uncorrectable t 0) s).shadowError (2 * core + bank) 0

/-- An uncorrectable error in an accumulator tile kills its team (R275). (DESIGN CHOICE: log 65) -/
def State.tileError (s : State) (tid tile : Nat) : State :=
  if (tget s.teams tid).any fun t => (tget t.tiles tile).isSome then s.uncorrectable tid 0 else s

/-- PART_FAILURE (R275, R278). (DESIGN CHOICE: log 50) (DESIGN CHOICE: log 65) -/
def execPartFailure (part : Part) (s : State) : Host.Outcome State Fault Refusal :=
  match part with
  | .cluster c => .next ((((s.outOfService c).loseTeams fun t => t.core / 8 == c)).loseEngine c)
  | .copyEngine c => .next (s.loseEngine c)
  | .bruin c => .next ((s.outOfService c).loseTeams fun t => t.core / 8 == c && (!t.tiles.isEmpty || !t.bruin.cmds.isEmpty))
  | .channel c => .next ((s.channelReads c).foldl (fun s p => s.loseTeam p.1 (wd p.2)) s)
  | .controlCore k => if k < 4 then .next (s.loseControl k) else .next s
  | .word p fatal => .next (s.wordError p fatal)
  | .registerBlock core bank lane block => .next (s.blockError core bank lane block)
  | .tile tid tile => .next (s.tileError tid tile)

end Sys2Proof.Machine
end

