-- ==== Sys2Proof/Machine/Package.lean ====
section
/-! DEFINITION. Trust (R375, R376), live servicing (R377) and the host's accesses to memory (R363). -/

namespace Sys2Proof.Machine

/-! ### Boot (R375) -/

/-- Both checks of a firmware image pass. -/
def imageGood (i : Nat) : Bool := Config.imageCheck i 0 && Config.imageCheck i 1

/-- The status register of the boot ROM: bit 2 × image + check is 1 for a check that failed; an image that has not been
tried shows 0. -/
def bootReport : BitVec 4 :=
  let a := flag (!Config.imageCheck 0 0) 0 + flag (!Config.imageCheck 0 1) 1
  let b := flag (!Config.imageCheck 1 0) 2 + flag (!Config.imageCheck 1 1) 3
  BitVec.ofNat 4 (if imageGood 0 then a else a + b)

/-- The firmware's part of bring-up: the host window is zero, every GRPOWN all ones. (DESIGN CHOICE: log 52) -/
def State.bringUp (s : State) (image : Nat) : State :=
  { s with mem := zeroMem s.mem (hostLoc 0) (2 ^ 23),
           package := { s.package with booted := true, firmware := image, bootStatus := bootReport, grpown := [] } }

/-- BOOT (R375): the ROM starts image A or B, or the device halts. (DESIGN CHOICE: log 52) (DESIGN CHOICE: log 61) -/
def execBoot (s : State) : Host.Outcome State Fault Refusal :=
  if s.package.booted || s.package.halted then .next s
  else if imageGood 0 then .next (s.bringUp 0)
  else if imageGood 1 then .next (s.bringUp 1)
  else .next { s with package := { s.package with halted := true, bootStatus := bootReport } }

/-! ### Attestation (R376) -/

/-- Bytes 0 to 175 of a report. The device id and the measurements are free values. (DESIGN CHOICE: log 53) -/
def State.reportBytes (s : State) (nonce : BitVec 256) : List Byte :=
  let m := fun k : Nat => (List.range 32).map fun i => Config.measurementByte k i
  leBytes 32 nonce.toNat ++ m 0 ++ m 1 ++ m (2 + s.package.firmware) ++ m (4 + s.freeCtr)
    ++ leBytes 8 (Config.rollbackIndex s.package.firmware).toNat ++ leBytes 8 s.ns

/-- ATTESTATION_REQUEST (R376): the report is written, then vector 64 fires. A report that the host window does not hold
is not written. -/
def execAttestationRequest (nonce : BitVec 256) (off : Nat) (s : State) : Host.Outcome State Fault Refusal :=
  if 2 ^ 23 < off + 3485 then .next s
  else
    let sig := (List.range 3309).map fun i => Config.signatureByte s.freeCtr i
    .next ((s.store (hostLoc off) (s.reportBytes nonce ++ sig)).useFree.fire 64)

/-! ### Live servicing (R377) -/

/-- A servicing command completes: 1 success, 2 refusal. -/
def State.svcDone (s : State) (n : Nat) : State :=
  { s with package := { s.package with svcstat := wd n, svcBusy := false, reconfigure := none } }.fire 64

/-- The step of a servicing command. -/
def svcStep (cmd arg : Word) : List Instr :=
  match cmd.toNat with
  | 1 => [.firmwareSwitch arg]
  | 2 => [.clusterReplace arg]
  | 3 => [.lp6Retrain arg]
  | 4 => [.streamReconfigure arg]
  | _ => []

/-- SVCSTAT is written: as zero it starts the command in SVCCMD; an unknown command is refused. Written while a command
runs it has no effect. (DESIGN CHOICE: log 51) -/
def State.startSvc (s : State) (w : Word) : State :=
  if s.package.svcBusy || w != 0 then s
  else
    let s := { s with package := { s.package with svcstat := 0 } }
    match svcStep s.package.svccmd s.package.svcarg with
    | [] => s.svcDone 2
    | i => { s with agenda := i ++ s.agenda, package := { s.package with svcBusy := true } }

/-- Prefetched packets that are not in execution are dropped, to be fetched again (R349). -/
def State.refetch (s : State) : State :=
  (s.hostqs.map Prod.fst).foldl (fun s q =>
    s.updHostq q fun h => { h with fetched := if s.inExecution q then h.fetched.take 1 else [] }) s

/-- Every control core is at a packet boundary. -/
def State.atBoundaries (s : State) : Bool := s.ctl.all fun p => p.2.cur.isNone

/-- FIRMWARE_SWITCH (R377): to the image in SVCARG, whose checks must pass (R375), once the control cores stand at packet
boundaries. (DESIGN CHOICE: log 51) -/
def execFirmwareSwitch (arg : Word) (s : State) : Host.Outcome State Fault Refusal :=
  if !s.servicing 1 || !s.atBoundaries then .next s
  else if 1 < arg.toNat || !imageGood arg.toNat then .next (s.svcDone 2)
  else .next (({ s with package := { s.package with firmware := arg.toNat } }.refetch).svcDone 1)

/-- A cluster's teams can move to a spare: no latch window, hint run or stop holds its cores, no access of theirs is in
flight, and every stamp is reached (R277, R158). -/
def State.spareReady (s : State) (cl : Nat) : Bool :=
  (List.range 8).all (fun i => (s.core (cl * 8 + i)).holder.isNone && !(s.core (cl * 8 + i)).stop.stopped)
    && !s.ops.any (fun p => p.2.core / 8 == cl) && !s.posts.any (fun p => p.2.core / 8 == cl || sidCluster p.2.sid == cl)
    && s.teams.all fun p => p.2.core / 8 != cl || p.2.gone || p.2.stamps.all fun n => decide (n ≤ (s.core p.2.core).cw p.2.bank)

/-- The groups of a cluster's cores are dissolved: their threads are filed. -/
def State.dissolve (s : State) (cl : Nat) : State :=
  (s.groups.filter fun g => g.2.core / 8 == cl).foldl (fun s p =>
    let s := s.closePart p.1
    match tget s.groups p.1 with
    | none => s
    | some g => g.threads.foldl (fun s sid => (s.leaveGroup sid).fileThread sid g.pc) s) s

/-- A team that has been saved and restored: its stamps are 0 (R158), its Bruin queue stands where the save left it. -/
def Team.carried (t : Team) : Team :=
  { t with bruin := t.bruin.parkAt, w := t.w.map fun w => { w with entries := w.entries.map fun e => { e with stamp := 0 } } }

/-- A logical cluster is on its spare: its teams have been swapped and restored, so that a thread halted by a page fault
reissues (R277); its latches are invalid (R18), its TLBs and its walker hold nothing, and its count of clocks begins
(R354). -/
def State.toSpare (s : State) (cl spare : Nat) : State :=
  let s := ((List.range 8).foldl (fun s i => s.dropCoreLatches (cl * 8 + i)) (s.dissolve cl)).updCluster cl fun c =>
    { c with physical := spare, down := false, tlbMem := [], tlbMatrix := [], tlbCopy := [], tlbFetch := [], walks := [],
             lcycAcc := 0, lcycAt := s.clk, trace := { c.trace with needSync := c.trace.needSync || c.trace.en } }
  let s : State := { s with teams := tmap s.teams fun _ t => if t.core / 8 = cl then t.carried else t,
                            package := { s.package with spares := s.package.spares.drop 1 } }
  let here := s.threads.filter fun p => sidCluster p.1 == cl
  here.foldl (fun s p => s.wakeRestored (here.map Prod.fst) p.1) s

/-- CLUSTER_REPLACE (R377): refused without a healthy spare that holds the live state; it waits until the cluster's teams
can move. (DESIGN CHOICE: log 51) -/
def execClusterReplace (arg : Word) (s : State) : Host.Outcome State Fault Refusal :=
  let cl := arg.toNat % 32
  if !s.servicing 2 then .next s
  else
    match s.package.spares with
    | [] => .next (s.svcDone 2)
    | spare :: _ =>
      if 24 ≤ cl then .next (s.svcDone 2)
      else if !s.spareReady cl then .next s
      else if !Config.spareFits s.freeCtr then .next (s.useFree.svcDone 2)
      else .next ((s.useFree.toSpare cl spare).svcDone 1)

/-- LP6_RETRAIN (R377): accesses to the channel are held and then performed; with no time modelled, nothing else changes.
(DESIGN CHOICE: log 51) -/
def execLp6Retrain (_arg : Word) (s : State) : Host.Outcome State Fault Refusal :=
  if s.servicing 3 then .next (s.svcDone 1) else .next s

/-- STREAM_RECONFIGURE (R377): STOP, then ADMIT once STATE is 0. (DESIGN CHOICE: log 51) -/
def execStreamReconfigure (arg : Word) (s : State) : Host.Outcome State Fault Refusal :=
  let n := arg.toNat % 64
  if !s.servicing 4 then .next s
  else
    let s := s.stopStream n
    if (s.stream n).state = 0 then
      let s := s.admitCmd n
      .next (s.svcDone (if (s.stream n).state = 1 then 1 else 2))
    else .next { s with package := { s.package with reconfigure := some n } }

/-- A servicing command that waits can go on. -/
def State.svcMoves (s : State) : Option Instr :=
  if s.servicing 1 && s.atBoundaries then some (.firmwareSwitch s.package.svcarg)
  else if s.servicing 2 && s.spareReady (s.package.svcarg.toNat % 32) then some (.clusterReplace s.package.svcarg)
  else if s.servicing 4 && s.package.reconfigure.any (fun n => (s.stream n).state == 0) then
    some (.streamReconfigure s.package.svcarg)
  else none

/-! ### The host (R363) -/

/-- Memory that the host reaches: LP6 and the host window, as locations. -/
def hostReach (p n : Nat) : Bool := decide (p + n ≤ 2 ^ 40) || (decide (hostLoc 0 ≤ p) && decide (p + n ≤ hostLoc (2 ^ 23)))

/-- HOST_MEMORY_ACCESS (R363): a write is performed; a read changes nothing. -/
def execHostMemoryAccess (write : Bool) (addr : Nat) (data : List Byte) (s : State) : Host.Outcome State Fault Refusal :=
  if write && hostReach addr data.length then .next (s.store addr data) else .next s

end Sys2Proof.Machine
end

