-- ==== Sys2Proof/Machine/Power.lean ====
section
/-! DEFINITION. Power (R369, R370, R373, R374) and the modules of the host link (R364). -/

namespace Sys2Proof.Machine

/-! ### Grants (R370) -/

/-- A cluster's body bias is set; a change is marked by a SYNC record (R355). -/
def State.setBias (s : State) (cl b : Nat) : State :=
  s.updCluster cl fun c =>
    if b = c.bias then c else { c with bias := b, trace := { c.trace with needSync := c.trace.needSync || c.trace.en } }

/-- A cluster takes its grant for a period: its clock is the highest step that the grant covers. One without a grant drops
to 1.2 GHz with reverse bias. (DESIGN CHOICE: log 54) -/
def State.takeGrant (s : State) (cl : Nat) : Option Nat → State
  | some w =>
    let s := (s.setBias cl (Config.biasFor w % 3)).updCluster cl fun c => { c with grant := w % 4096, floor := false }
    s.setClock cl (s.topClock cl)
  | none => ((s.setBias cl 2).updCluster cl fun c => { c with grant := 0, floor := true }).setClock cl 1200

/-- What the LP6 and the SerDes leave of the module's limit (R370): their draw is a free value. (DESIGN CHOICE: log 54) -/
def State.grantLimit (s : State) : Nat := s.package.limit - Config.ioDraw s.clk

/-- A grant period has passed without a grant, and a cluster does not yet sit at the floor (R370). (DESIGN CHOICE: log 54) -/
def State.floorDue (s : State) : Bool :=
  decide (s.package.lastGrant + 200000 ≤ s.ns) && (List.range 24).any fun cl => !(s.cluster cl).floor

/-- POWER_GRANT (R370): every 100 µs of device time; grants that exceed the limit are not given. -/
def execPowerGrant (grants : List (Option Nat)) (s : State) : Host.Outcome State Fault Refusal :=
  if s.ns < s.package.lastGrant + 100000 then .next s
  else if s.grantLimit < grants.foldl (fun a g => a + g.getD 0) 0 then .next s
  else
    let s := { s with package := { s.package with lastGrant := s.ns } }
    .next ((List.range 24).foldl (fun s cl => s.takeGrant cl (grants.getD cl none)) s)

/-! ### Filler (R373) -/

/-- FILLER (R373): its energy is charged to the context that left; it does nothing else. (DESIGN CHOICE: log 55) -/
def execFiller (ctx nj : Nat) (s : State) : Host.Outcome State Fault Refusal :=
  if 64 ≤ ctx then .next s
  else
    let on := s.captures ctx
    let s := s.updCtx ctx fun c =>
      { c with energy := c.energy + wd nj, capEnergy := if on then c.capEnergy + nj else c.capEnergy }
    .next { s with package := { s.package with energyDie := s.package.energyDie + wd nj,
                                                energyModule := s.package.energyModule + wd nj } }

/-! ### Power kill (R374) -/

/-- The open cards of a context that power kill has not taken yet. -/
def State.openOf (s : State) (ctx : Nat) : List Nat :=
  (s.cards.filter fun p => p.2.ctx == ctx && !p.2.out.powerKill && s.cardOpen p.1).map Prod.fst

/-- A context has an admitted stream. -/
def State.streams? (s : State) (ctx : Nat) : Bool := s.streams.any fun p => p.2.ctx == ctx && p.2.state != 0

/-- The context that power kill takes next: the lowest highest priority among its open cards, then the highest number; one
with an admitted stream only after every other. (DESIGN CHOICE: log 54) -/
def State.powerVictim (s : State) : Option Nat :=
  let cs := (List.range 64).reverse.filter fun c => !(s.openOf c).isEmpty
  let plain := cs.filter fun c => !s.streams? c
  let top := fun c => (s.openOf c).foldl (fun m k => max m (((tget s.cards k).map Card.prio).getD 0)) 0
  minBy top (if plain.isEmpty then cs else plain)

/-- A whole context is killed (R374). -/
def State.powerKillCtx (s : State) (ctx : Nat) : State :=
  let s := (s.openOf ctx).foldl (fun s c => s.killCard c fun o => { o with powerKill := true }) s
  let s := (List.range 68).foldl (fun s ch => if (s.chain ctx ch).en then s.disableChain ctx ch else s) s
  { s with package := { s.package with kills := s.package.kills + 1 } }.fire 64

/-- Contexts are killed one at a time until the measured current, a free value, is below ICRIT. -/
def State.powerKills (s : State) : Nat → State
  | 0 => s
  | n + 1 =>
    match s.powerVictim with
    | none => s
    | some c =>
      let s := (s.powerKillCtx c).useFree
      if s.package.icrit.toNat ≤ Config.dieCurrent s.freeCtr then s.powerKills n else s

/-- POWER_KILL (R374): the current has stayed above ICRIT for 2 µs. -/
def execPowerKill (s : State) : Host.Outcome State Fault Refusal := .next (s.powerKills 64)

/-! ### The host link (R364) -/

/-- LINK_MODULE_FAIL (R364): the link carries on over the other modules. -/
def execLinkModuleFail (m : Nat) (s : State) : Host.Outcome State Fault Refusal :=
  if 8 ≤ m then .next s
  else .next ({ s with package := { s.package with modulesDown := insRise s.package.modulesDown m } }.fire 64)

/-- UCIE_MODULE_RETRAINED (R364). -/
def execUcieModuleRetrained (m : Nat) (s : State) : Host.Outcome State Fault Refusal :=
  .next { s with package := { s.package with modulesDown := s.package.modulesDown.erase m } }

end Sys2Proof.Machine
end

