-- ==== Sys2Proof/Machine/Registers.lean ====
section
/-! DEFINITION. Writes of the register aperture (R268): each block's words under the rules of its own chapter. -/

namespace Sys2Proof.Machine

/-- What comes of an outcome that is a next state. -/
def nextOr (s : State) : Host.Outcome State Fault Refusal → State
  | .next t => t
  | _ => s

/-! ### Narrow writes (R268) -/

/-- A word whose bytes that a narrow write does not cover count as zero: one with W1C or WO fields only. -/
def zeroBytes (o : Nat) : Bool :=
  if o < 0x40000 then o % 0x1000 == 0x60 || o % 0x1000 == 0x800 || o % 0x1000 == 0x810
  else if o < 0x580000 then o % 0x10000 == 0x800
  else if 0x901000 ≤ o ∧ o < 0x902000 then o % 64 == 8
  else o == 0xA00028 || o == 0xD20000 || o == 0xD20008

/-- The 64-bit value that a write of `n` bytes at offset `o` of the aperture stands for. (DESIGN CHOICE: log 59) -/
def State.merged (s : State) (o n : Nat) (w : Word) : Word :=
  let a := o / 8 * 8
  let old := if zeroBytes a then 0 else (s.regWord a).toNat
  let k := o % 8
  wd (old % 2 ^ (8 * k) + w.toNat % 2 ^ (8 * n) * 2 ^ (8 * k) + old / 2 ^ (8 * (k + n)) * 2 ^ (8 * (k + n)))

/-! ### Blocks -/

/-- CTXCFG and PART are written through the aperture only, and to an idle context (R268). -/
def State.writeCtxWord (s : State) (ctx n : Nat) (w : Word) : State :=
  match n with
  | 0x02 => s.whenIdle ctx fun s => s.updCtx ctx fun c => { c with slice := bits w 31 16, maxprio := bits w 7 4, priv := bitAt w 0 }
  | 0x12 => s.whenIdle ctx fun s => s.updCtx ctx fun c => { c with part := w.setWidth 24 }
  | _ => s.writeCtxReg ctx n w

/-- A word of a context's block (R265, R273, R361, R378). -/
def State.writeCtxBlock (s : State) (ctx o : Nat) (w : Word) : State :=
  if o < 0xA0 then s.writeCtxWord ctx (o / 8) w
  else match o with
    | 0x800 => s.command ctx w
    | 0x808 => s.updCtx ctx fun c => { c with cmdarg := w }
    | 0x810 => if w = 1 then nextOr s (execCaptureStart ctx s) else if w = 2 then nextOr s (execCaptureStop ctx s) else s
    | 0x818 => s.updCtx ctx fun c => { c with capaddr := wd (bits w 63 6 * 64) }
    | 0x828 => s.updCtx ctx fun c => { c with podgid := w.setWidth 8 }
    | _ => s

/-- BANKCTX of a core is written (R268): the turn of a context that held no bank begins (R269). (DEDUCED: log 49) -/
def State.writeBankctx (s : State) (core : Nat) (b : BitVec 16) : State :=
  let held := fun (s : State) (ctx : Nat) => s.cores.any fun p => !(p.2.banksOf ctx).isEmpty
  let t := s.updCore core fun c => { c with bankctx := b }
  ((List.range 64).filter fun ctx => held t ctx && !held s ctx).foldl (fun s ctx =>
    s.updCtx ctx fun c => { c with turnFrom := s.ns }) t

/-- A word of a cluster's block, but for its ownership map, and of its cores' (R266, R268). -/
def State.writeClusterBlock (s : State) (cl o : Nat) (w : Word) : State :=
  if 0x400 ≤ o ∧ o < 0x800 then
    if o % 16 = 0 then s.writeCpbase ((o - 0x400) / 16) cl w else s.writeCpn ((o - 0x400) / 16) cl w
  else if o = 0x800 then s.writeOwnrej cl w
  else if 0x8000 ≤ o ∧ o < 0x8800 then
    let core := cl * 8 + (o - 0x8000) / 0x100
    match o % 0x100 with
    | 0 => s.writeBankctx core (w.setWidth 16 &&& 0xBFBF)
    | 8 => s.writeDqsplit core w (s.core core).bankCtxs none
    | _ => s
  else s

/-- A word of a chain's or ring's block (R280). -/
def State.writeChainWord (s : State) (ctx ch i : Nat) (w : Word) : State :=
  match i with
  | 0 => s.writeChcfg ctx ch w
  | 1 => s.raiseTail ctx ch w
  | _ => s

/-- A word of a stream's control block (R326). -/
def State.writeStreamWord (s : State) (n i : Nat) (w : Word) : State :=
  match i with
  | 0 => if (s.stream n).state = 0 then s.updStream n fun t => { t with srec := w } else s
  | 1 => match bits w 1 0 with | 1 => s.admitCmd n | 2 => s.stopStream n | _ => s
  | _ => s

/-- A word of the time-sync block (R323, R325). -/
def State.writeTimeWord (s : State) (i : Nat) (w : Word) : State :=
  match i with
  | 4 => s.updTime fun t => { t with domain := BitVec.ofNat 8 (bits w 23 16), en := bitAt w 5, port := w.setWidth 5 }.settle
  | 5 => s.updTime fun t => { t with stepped := t.stepped && !bitAt w 4, alarm := t.alarm && !bitAt w 3 }
  | _ => s

/-- A word of a host queue's block (R344). -/
def State.writeHostqWord (s : State) (q i : Nat) (w : Word) : State :=
  match i with
  | 0 => if bitAt w 0 then s.enableHostq q w else s.disableHostq q w
  | 1 => s.kickHostq q w
  | _ => s

/-- A word of a trace unit's block (R354, R355): EN = 1 with TLOG out of range is ignored; a SYNC record follows EN. -/
def State.writeTraceWord (s : State) (cl i : Nat) (w : Word) : State :=
  match i with
  | 0 =>
    if bitAt w 0 && (bits w 5 1 < 8 || 20 < bits w 5 1) then s
    else s.updCluster cl fun c => { c with trace := { c.trace with
      tbase := wd (bits w 63 12 * 4096), tlog := bits w 5 1, en := bitAt w 0,
      needSync := (c.trace.needSync || !c.trace.en) && bitAt w 0 } }
  | 2 => s.updCluster cl fun c => { c with trace := { c.trace with trd := monoMax c.trace.trd w } }
  | _ => s

/-- A word of a core's stop block (R356). -/
def State.writeStopWord (s : State) (core i : Nat) (w : Word) : State :=
  match i with
  | 0 =>
    let t := s.updCore core fun c => { c with stop := { c.stop with dbase := wd (bits w 63 12 * 4096), enb := bitAt w 3, ena := bitAt w 2 } }
    if (s.core core).stop.stopped then (if bitAt w 1 then nextOr t (execPreciseStopRelease core t) else t)
    else if bitAt w 0 then nextOr t (execPreciseStopRequest core t) else t
  | 2 => s.updCore core fun c => { c with stop := { c.stop with dbgaddr := wd (bits w 19 14 * 2 ^ 14 + bits w 12 0) } }
  | _ => s

/-- A word of the power block (R369, R371). -/
def State.writePowerWord (s : State) (i : Nat) (w : Word) : State :=
  let p := s.package
  match i with
  | 0 => { s with package := { p with modlimit := w.setWidth 16 } }.setLimit
  | 1 => { s with package := { p with slope := w.setWidth 16 } }
  | 2 => { s with package := { p with icrit := w.setWidth 16 } }
  | 3 => { s with package := { p with racklimit := w.setWidth 16 } }.setLimit
  | _ => s

/-- A word of the servicing block (R377): a command written while another runs is refused. -/
def State.writeSvcWord (s : State) (i : Nat) (w : Word) : State :=
  if s.package.svcBusy then s
  else match i with
    | 0 => { s with package := { s.package with svccmd := w } }
    | 1 => { s with package := { s.package with svcarg := w } }
    | 2 => s.startSvc w
    | _ => s

/-- A word of the fabric block (R378). -/
def State.writeFabricWord (s : State) (n : Nat) (w : Word) : State :=
  let f := s.fabric
  if n = 0 then { s with fabric := { f with pod := w.setWidth 8 } }
  else if n = 1 then { s with fabric := { f with fto := w.setWidth 32 } }
  else if 0x201 ≤ n ∧ n ≤ 0x2FE then { s with fabric := { f with routes := tset f.routes (n - 0x200) (w.setWidth 12 &&& 0xFFE) } }
  else if 0x400 ≤ n ∧ n < 0x500 then { s with fabric := { f with ingress := tset f.ingress (n - 0x400) (w.setWidth 8 &&& 0xBF) } }
  else s

/-- The 64-bit word at an aligned offset of the aperture is written, the ownership maps apart. (DESIGN CHOICE: log 59) -/
def State.writeWord (s : State) (o : Nat) (w : Word) : State :=
  if o < 0x40000 then s.writeCtxBlock (o / 0x1000) (o % 0x1000) w
  else if 0x400000 ≤ o ∧ o < 0x400000 + 24 * 0x10000 then
    s.writeClusterBlock ((o - 0x400000) / 0x10000) ((o - 0x400000) % 0x10000) w
  else if 0x800000 ≤ o ∧ o < 0x840000 then
    if o % 0x1000 < 0x800 then s.writeChainWord ((o - 0x800000) / 0x1000) (o % 0x1000 / 32) (o % 32 / 8) w else s
  else if 0x840000 ≤ o ∧ o < 0x880000 then
    if o % 0x1000 < 0x80 then s.writeChainWord ((o - 0x840000) / 0x1000) (64 + o % 0x1000 / 32) (o % 32 / 8) w else s
  else if 0x900000 ≤ o ∧ o < 0x900800 then if o % 32 = 0 then s.writeBsrd ((o - 0x900000) / 32) w else s
  else if 0x901000 ≤ o ∧ o < 0x902000 then s.writeStreamWord ((o - 0x901000) / 64) (o % 64 / 8) w
  else if 0xA00000 ≤ o ∧ o < 0xA00030 then s.writeTimeWord ((o - 0xA00000) / 8) w
  else if 0xB00000 ≤ o ∧ o < 0xB02000 then s.writeHostqWord ((o - 0xB00000) / 32) (o % 32 / 8) w
  else if o = 0xB02000 then
    { s with journal := { s.journal with jbase := wd (bits w 22 12 * 4096), jlog := bits w 3 0 } }
  else if 0xC00000 ≤ o ∧ o < 0xC00000 + 24 * 0x100 then
    if o % 0x100 < 32 then s.writeTraceWord ((o - 0xC00000) / 0x100) (o % 0x100 / 8) w else s
  else if o = 0xC08000 then s.writeSeries w
  else if o = 0xC08010 then { s with series := { s.series with srd := monoMax s.series.srd w } }
  else if 0xC20000 ≤ o ∧ o < 0xC2C000 then
    if o % 0x100 < 32 then s.writeStopWord ((o - 0xC20000) / 0x100) (o % 0x100 / 8) w else s
  else if 0xD00000 ≤ o ∧ o < 0xD00100 then s.writePowerWord ((o - 0xD00000) / 8) w
  else if 0xD10000 ≤ o ∧ o < 0xD10080 then
    { s with package := { s.package with grpown := tset s.package.grpown ((o - 0xD10000) / 8) w } }
  else if o = 0xD20000 ∨ o = 0xD20008 then
    if bitAt w 3 then s.updDp ((o - 0xD20000) / 8) fun d => d &&& 0xF7 else s
  else if 0xD30000 ≤ o ∧ o < 0xD30018 then s.writeSvcWord ((o - 0xD30000) / 8) w
  else if 0xE00000 ≤ o ∧ o < 0xE02800 then s.writeFabricWord ((o - 0xE00000) / 8) w
  else s

/-- An offset lies in a cluster's ownership map: the cluster and the offset in its map. -/
def ownerMap (o : Nat) : Option (Nat × Nat) :=
  if 0x400000 ≤ o ∧ o < 0x400000 + 24 * 0x10000 ∧ o % 0x10000 < 0x400 then some ((o - 0x400000) / 0x10000, o % 0x10000) else none

/-- A write of the aperture of `n` bytes (R268): one that is not naturally aligned is ignored. A byte write of an
ownership entry sets no entry. -/
def State.writeReg (s : State) (o n : Nat) (w : Word) : State :=
  if !regAligned o n then s
  else
    let s := s.noteWrite (regLoc o) n
    match ownerMap o with
    | some (cl, p) => (List.range (n / 2)).foldl (fun s i => s.writeOwner cl (p / 2 + i) (BitVec.ofNat 16 (w.toNat / 2 ^ (16 * i)))) s
    | none => s.writeWord (o / 8 * 8) (s.merged o n w)

/-- REGISTER_WRITE (R268). -/
def execRegisterWrite (off size : Nat) (w : Word) (s : State) : Host.Outcome State Fault Refusal := .next (s.writeReg off size w)

end Sys2Proof.Machine
end

