-- ==== Sys2Proof/Machine/Dispatch.lean ====
section
/-! DEFINITION. Which meaning each constructor of Instr has. -/

namespace Sys2Proof.Machine

/-- The meaning of a step, by its constructor. -/
def exec (i : Instr) (s : State) : Host.Outcome State Fault Refusal :=
  match i with
  | .nop => Sys2Proof.Machine.execNop s
  | .iadd g d a b t => Sys2Proof.Machine.execIadd g d a b t s
  | .isub g d a b t => Sys2Proof.Machine.execIsub g d a b t s
  | .imul g d a b t => Sys2Proof.Machine.execImul g d a b t s
  | .imulh g d a b t => Sys2Proof.Machine.execImulh g d a b t s
  | .imad g a b c t => Sys2Proof.Machine.execImad g a b c t s
  | .imin g d a b t => Sys2Proof.Machine.execImin g d a b t s
  | .imax g d a b t => Sys2Proof.Machine.execImax g d a b t s
  | .iabs g d a t => Sys2Proof.Machine.execIabs g d a t s
  | .and g d a b t => Sys2Proof.Machine.execAnd g d a b t s
  | .or g d a b t => Sys2Proof.Machine.execOr g d a b t s
  | .xor g d a b t => Sys2Proof.Machine.execXor g d a b t s
  | .andn g d a b t => Sys2Proof.Machine.execAndn g d a b t s
  | .shl g d a b t => Sys2Proof.Machine.execShl g d a b t s
  | .shr g d a b t => Sys2Proof.Machine.execShr g d a b t s
  | .sar g d a b t => Sys2Proof.Machine.execSar g d a b t s
  | .rot g d a b t => Sys2Proof.Machine.execRot g d a b t s
  | .popc g d a t => Sys2Proof.Machine.execPopc g d a t s
  | .clz g d a t => Sys2Proof.Machine.execClz g d a t s
  | .ctz g d a t => Sys2Proof.Machine.execCtz g d a t s
  | .brev g d a t => Sys2Proof.Machine.execBrev g d a t s
  | .bfe g d a b t => Sys2Proof.Machine.execBfe g d a b t s
  | .bfi g a b c t => Sys2Proof.Machine.execBfi g a b c t s
  | .icmp g k p a b t => Sys2Proof.Machine.execIcmp g k p a b t s
  | .lea g d a b t => Sys2Proof.Machine.execLea g d a b t s
  | .mov g d a t => Sys2Proof.Machine.execMov g d a t s
  | .movi g d ix => Sys2Proof.Machine.execMovi g d ix s
  | .iaddi g d a ix => Sys2Proof.Machine.execIaddi g d a ix s
  | .wid g d sw => Sys2Proof.Machine.execWid g d sw s
  | .cvta g d a sw => Sys2Proof.Machine.execCvta g d a sw s
  | .isap g k p a => Sys2Proof.Machine.execIsap g k p a s
  | .plop g d a b l => Sys2Proof.Machine.execPlop g d a b l s
  | .fadd g d a b t => Sys2Proof.Machine.execFadd g d a b t s
  | .fsub g d a b t => Sys2Proof.Machine.execFsub g d a b t s
  | .fmul g d a b t => Sys2Proof.Machine.execFmul g d a b t s
  | .ffma g a b c t => Sys2Proof.Machine.execFfma g a b c t s
  | .hfma2 g a b c t => Sys2Proof.Machine.execHfma2 g a b c t s
  | .fmin g d a b t => Sys2Proof.Machine.execFmin g d a b t s
  | .fmax g d a b t => Sys2Proof.Machine.execFmax g d a b t s
  | .fcmp g k p a b t => Sys2Proof.Machine.execFcmp g k p a b t s
  | .frcp g d a t => Sys2Proof.Machine.execFrcp g d a t s
  | .frsq g d a t => Sys2Proof.Machine.execFrsq g d a t s
  | .fsqrt g d a t => Sys2Proof.Machine.execFsqrt g d a t s
  | .fex2 g d a t => Sys2Proof.Machine.execFex2 g d a t s
  | .flg2 g d a t => Sys2Proof.Machine.execFlg2 g d a t s
  | .fsin g d a t => Sys2Proof.Machine.execFsin g d a t s
  | .fcos g d a t => Sys2Proof.Machine.execFcos g d a t s
  | .ftanh g d a t => Sys2Proof.Machine.execFtanh g d a t s
  | .frnd g d a t => Sys2Proof.Machine.execFrnd g d a t s
  | .cvt g d a x y => Sys2Proof.Machine.execCvt g d a x y s
  | .cvtDxb g d a f sw => Sys2Proof.Machine.execCvtDxb g d a f sw s
  | .qpk g d a b t => Sys2Proof.Machine.execQpk g d a b t s
  | .qupk g d a b t => Sys2Proof.Machine.execQupk g d a b t s
  | .mort g d a b => Sys2Proof.Machine.execMort g d a b s
  | .bbu g d a b => Sys2Proof.Machine.execBbu g d a b s
  | .bra g o => Sys2Proof.Machine.execBra g o s
  | .call g o => Sys2Proof.Machine.execCall g o s
  | .brx g a => Sys2Proof.Machine.execBrx g a s
  | .reform g o => Sys2Proof.Machine.execReform g o s
  | .exit g => Sys2Proof.Machine.execExit g s
  | .trap g a n => Sys2Proof.Machine.execTrap g a n s
  | .bkpt g => Sys2Proof.Machine.execBkpt g s
  | .bkptStop g => Sys2Proof.Machine.execBkptStop g s
  | .perm g d a b t => Sys2Proof.Machine.execPerm g d a b t s
  | .ballot g d a j => Sys2Proof.Machine.execBallot g d a j s
  | .ballotP g d k => Sys2Proof.Machine.execBallotP g d k s
  | .vote g k p a b => Sys2Proof.Machine.execVote g k p a b s
  | .xld g d a ix => Sys2Proof.Machine.execXld g d a ix s
  | .xst g a b o => Sys2Proof.Machine.execXst g a b o s
  | .qinit g a b => Sys2Proof.Machine.execQinit g a b s
  | .qstat g d n => Sys2Proof.Machine.execQstat g d n s
  | .qclose g n => Sys2Proof.Machine.execQclose g n s
  | .sdrop g a b => Sys2Proof.Machine.execSdrop g a b s
  | .ld g d a o sw r => Sys2Proof.Machine.execLd g d a o sw r s
  | .lds g d a o sw r => Sys2Proof.Machine.execLds g d a o sw r s
  | .ldq g d a o r => Sys2Proof.Machine.execLdq g d a o r s
  | .st g x a o sw r => Sys2Proof.Machine.execSt g x a o sw r s
  | .stq g x a o r => Sys2Proof.Machine.execStq g x a o r s
  | .atomAdd g d a b t => Sys2Proof.Machine.execAtomAdd g d a b t s
  | .atomMin g d a b t => Sys2Proof.Machine.execAtomMin g d a b t s
  | .atomMax g d a b t => Sys2Proof.Machine.execAtomMax g d a b t s
  | .atomAnd g d a b t => Sys2Proof.Machine.execAtomAnd g d a b t s
  | .atomOr g d a b t => Sys2Proof.Machine.execAtomOr g d a b t s
  | .atomXor g d a b t => Sys2Proof.Machine.execAtomXor g d a b t s
  | .atomXchg g d a b t => Sys2Proof.Machine.execAtomXchg g d a b t s
  | .atomCas g a b c t => Sys2Proof.Machine.execAtomCas g a b c t s
  | .atomFadd g d a b t => Sys2Proof.Machine.execAtomFadd g d a b t s
  | .fence g sw => Sys2Proof.Machine.execFence g sw s
  | .drain g sw => Sys2Proof.Machine.execDrain g sw s
  | .watch g a b => Sys2Proof.Machine.execWatch g a b s
  | .waitw g d a => Sys2Proof.Machine.execWaitw g d a s
  | .prf g a o sw => Sys2Proof.Machine.execPrf g a o sw s
  | .rvinit g ix a => Sys2Proof.Machine.execRvinit g ix a s
  | .arrive g ix => Sys2Proof.Machine.execArrive g ix s
  | .waitrv g ix => Sys2Proof.Machine.execWaitrv g ix s
  | .cvinit g ix a => Sys2Proof.Machine.execCvinit g ix a s
  | .msign g ix => Sys2Proof.Machine.execMsign g ix s
  | .post g d a b => Sys2Proof.Machine.execPost g d a b s
  | .work g d => Sys2Proof.Machine.execWork g d s
  | .workTry g d => Sys2Proof.Machine.execWorkTry g d s
  | .susp g k a b => Sys2Proof.Machine.execSusp g k a b s
  | .suspNow g b => Sys2Proof.Machine.execSuspNow g b s
  | .done g => Sys2Proof.Machine.execDone g s
  | .tdld g d a b => Sys2Proof.Machine.execTdld g d a b s
  | .tdinv g a => Sys2Proof.Machine.execTdinv g a s
  | .marm g ix a => Sys2Proof.Machine.execMarm g ix a s
  | .mzero g d n => Sys2Proof.Machine.execMzero g d n s
  | .mzeroRel g d n => Sys2Proof.Machine.execMzeroRel g d n s
  | .mld g d a b => Sys2Proof.Machine.execMld g d a b s
  | .mst g d a b => Sys2Proof.Machine.execMst g d a b s
  | .mcf g a n => Sys2Proof.Machine.execMcf g a n s
  | .mcf2 g a n => Sys2Proof.Machine.execMcf2 g a n s
  | .mpoly g d a => Sys2Proof.Machine.execMpoly g d a s
  | .miter g d a b => Sys2Proof.Machine.execMiter g d a b s
  | .tail g a b => Sys2Proof.Machine.execTail g a b s
  | .waittl g a ix => Sys2Proof.Machine.execWaittl g a ix s
  | .tlrd g d sw => Sys2Proof.Machine.execTlrd g d sw s
  | .tex g d a b => Sys2Proof.Machine.execTex g d a b s
  | .texf g d a b => Sys2Proof.Machine.execTexf g d a b s
  | .rq g d a b => Sys2Proof.Machine.execRq g d a b s
  | .pixw g a b => Sys2Proof.Machine.execPixw g a b s
  | .sysr g d n => Sys2Proof.Machine.execSysr g d n s
  | .sysw g a n => Sys2Proof.Machine.execSysw g a n s
  | .tlbi g a b => Sys2Proof.Machine.execTlbi g a b s
  | .himm p => Sys2Proof.Machine.execHimm p s
  | .hmod r sw f n a c h t => Sys2Proof.Machine.execHmod r sw f n a c h t s
  | .hsch y d => Sys2Proof.Machine.execHsch y d s
  | .hdropLo m => Sys2Proof.Machine.execHdropLo m s
  | .hdropHi m => Sys2Proof.Machine.execHdropHi m s
  | .hdropX f c => Sys2Proof.Machine.execHdropX f c s
  | .cxRfetch sw d => Sys2Proof.Machine.execCxRfetch sw d s
  | .cxBfx t sw d => Sys2Proof.Machine.execCxBfx t sw d s
  | .cxSwait t sw d => Sys2Proof.Machine.execCxSwait t sw d s
  | .cxDisp sw d => Sys2Proof.Machine.execCxDisp sw d s
  | .pendingValueFill op => Sys2Proof.Machine.execPendingValueFill op s
  | .writeComplete op => Sys2Proof.Machine.execWriteComplete op s
  | .binDraw core => Sys2Proof.Machine.execBinDraw core s
  | .waitwTimeout slot => Sys2Proof.Machine.execWaitwTimeout slot s
  | .watchdog team => Sys2Proof.Machine.execWatchdog team s
  | .regBlockRetention core bank lane block => Sys2Proof.Machine.execRegBlockRetention core bank lane block s
  | .scratchBankRetention cluster bank => Sys2Proof.Machine.execScratchBankRetention cluster bank s
  | .readyQueueScan => Sys2Proof.Machine.execReadyQueueScan s
  | .teamRetire team => Sys2Proof.Machine.execTeamRetire team s
  | .cardRetirement card => Sys2Proof.Machine.execCardRetirement card s
  | .cardDeadline card => Sys2Proof.Machine.execCardDeadline card s
  | .patrolScrub cluster off err => Sys2Proof.Machine.execPatrolScrub cluster off err s
  | .remotePost msg => Sys2Proof.Machine.execRemotePost msg s
  | .continuationDelivery ctx cluster => Sys2Proof.Machine.execContinuationDelivery ctx cluster s
  | .continuationResume cluster => Sys2Proof.Machine.execContinuationResume cluster s
  | .descriptorLoadComplete op => Sys2Proof.Machine.execDescriptorLoadComplete op s
  | .issueLatchEnter team => Sys2Proof.Machine.execIssueLatchEnter team s
  | .bruinPass cluster => Sys2Proof.Machine.execBruinPass cluster s
  | .chainEnable ctx chain w => Sys2Proof.Machine.execChainEnable ctx chain w s
  | .chainDisable ctx chain w => Sys2Proof.Machine.execChainDisable ctx chain w s
  | .chainConfigWrite ctx chain w => Sys2Proof.Machine.execChainConfigWrite ctx chain w s
  | .chtailWrite ctx chain w => Sys2Proof.Machine.execChtailWrite ctx chain w s
  | .chainEntryAccept ctx chain => Sys2Proof.Machine.execChainEntryAccept ctx chain s
  | .chainNop ctx chain => Sys2Proof.Machine.execChainNop ctx chain s
  | .copy ctx chain => Sys2Proof.Machine.execCopy ctx chain s
  | .raw ctx chain => Sys2Proof.Machine.execRaw ctx chain s
  | .fill ctx chain => Sys2Proof.Machine.execFill ctx chain s
  | .gather ctx chain => Sys2Proof.Machine.execGather ctx chain s
  | .redadd ctx chain => Sys2Proof.Machine.execRedadd ctx chain s
  | .chainWait ctx chain => Sys2Proof.Machine.execChainWait ctx chain s
  | .copyBurst cluster => Sys2Proof.Machine.execCopyBurst cluster s
  | .chainEntryComplete ctx chain => Sys2Proof.Machine.execChainEntryComplete ctx chain s
  | .binnerJob ctx binner => Sys2Proof.Machine.execBinnerJob ctx binner s
  | .rasterStrip cluster => Sys2Proof.Machine.execRasterStrip cluster s
  | .quadRecordPush cluster => Sys2Proof.Machine.execQuadRecordPush cluster s
  | .rayFinish team => Sys2Proof.Machine.execRayFinish team s
  | .encoderTileRow stream => Sys2Proof.Machine.execEncoderTileRow stream s
  | .bsrdWrite stream w => Sys2Proof.Machine.execBsrdWrite stream w s
  | .displayLine output => Sys2Proof.Machine.execDisplayLine output s
  | .dpLinkLoss output => Sys2Proof.Machine.execDpLinkLoss output s
  | .hotPlug output present => Sys2Proof.Machine.execHotPlug output present s
  | .streamAdmit stream => Sys2Proof.Machine.execStreamAdmit stream s
  | .streamStop stream => Sys2Proof.Machine.execStreamStop stream s
  | .streamFrameLimit stream => Sys2Proof.Machine.execStreamFrameLimit stream s
  | .actStart stream => Sys2Proof.Machine.execActStart stream s
  | .actRetire stream => Sys2Proof.Machine.execActRetire stream s
  | .outputCardLaunch stream => Sys2Proof.Machine.execOutputCardLaunch stream s
  | .actAbandon stream => Sys2Proof.Machine.execActAbandon stream s
  | .sync domain port => Sys2Proof.Machine.execSync domain port s
  | .followUp domain port t1 => Sys2Proof.Machine.execFollowUp domain port t1 s
  | .delayReq => Sys2Proof.Machine.execDelayReq s
  | .delayResp domain port t4 => Sys2Proof.Machine.execDelayResp domain port t4 s
  | .announce domain port => Sys2Proof.Machine.execAnnounce domain port s
  | .holdover => Sys2Proof.Machine.execHoldover s
  | .timensRead => Sys2Proof.Machine.execTimensRead s
  | .bankFlipLand core => Sys2Proof.Machine.execBankFlipLand core s
  | .bankFlipIssuable core => Sys2Proof.Machine.execBankFlipIssuable core s
  | .timeSliceExpiry ctx => Sys2Proof.Machine.execTimeSliceExpiry ctx s
  | .contextSwapOut ctx => Sys2Proof.Machine.execContextSwapOut ctx s
  | .contextRestore ctx move => Sys2Proof.Machine.execContextRestore ctx move s
  | .trapRecordPost ctx => Sys2Proof.Machine.execTrapRecordPost ctx s
  | .tqheadWrite ctx w => Sys2Proof.Machine.execTqheadWrite ctx w s
  | .replay ctx => Sys2Proof.Machine.execReplay ctx s
  | .resume ctx card wid => Sys2Proof.Machine.execResume ctx card wid s
  | .killteam ctx card wid => Sys2Proof.Machine.execKillteam ctx card wid s
  | .killcard ctx card => Sys2Proof.Machine.execKillcard ctx card s
  | .unfreeze ctx => Sys2Proof.Machine.execUnfreeze ctx s
  | .ownershipWrite cluster granule v => Sys2Proof.Machine.execOwnershipWrite cluster granule v s
  | .registerWrite off size w => Sys2Proof.Machine.execRegisterWrite off size w s
  | .kickWrite q w => Sys2Proof.Machine.execKickWrite q w s
  | .hostQueueEnable q w => Sys2Proof.Machine.execHostQueueEnable q w s
  | .hostQueueDisable q w => Sys2Proof.Machine.execHostQueueDisable q w s
  | .packetFetch q => Sys2Proof.Machine.execPacketFetch q s
  | .packetNop q => Sys2Proof.Machine.execPacketNop q s
  | .launch q => Sys2Proof.Machine.execLaunch q s
  | .graph q => Sys2Proof.Machine.execGraph q s
  | .wait q => Sys2Proof.Machine.execWait q s
  | .signal q => Sys2Proof.Machine.execSignal q s
  | .flush q => Sys2Proof.Machine.execFlush q s
  | .fetchfence q => Sys2Proof.Machine.execFetchfence q s
  | .traceSyncRecord cluster => Sys2Proof.Machine.execTraceSyncRecord cluster s
  | .trdWrite cluster w => Sys2Proof.Machine.execTrdWrite cluster w s
  | .preciseStopRequest core => Sys2Proof.Machine.execPreciseStopRequest core s
  | .preciseStop core => Sys2Proof.Machine.execPreciseStop core s
  | .preciseStopRelease core => Sys2Proof.Machine.execPreciseStopRelease core s
  | .counterSample => Sys2Proof.Machine.execCounterSample s
  | .srdWrite w => Sys2Proof.Machine.execSrdWrite w s
  | .captureStart ctx => Sys2Proof.Machine.execCaptureStart ctx s
  | .captureStop ctx => Sys2Proof.Machine.execCaptureStop ctx s
  | .energyLowRead acc => Sys2Proof.Machine.execEnergyLowRead acc s
  | .powerGrant grants => Sys2Proof.Machine.execPowerGrant grants s
  | .budgetSend draw demand => Sys2Proof.Machine.execBudgetSend draw demand s
  | .budgetMessage src dst time watts => Sys2Proof.Machine.execBudgetMessage src dst time watts s
  | .filler ctx nj => Sys2Proof.Machine.execFiller ctx nj s
  | .powerKill => Sys2Proof.Machine.execPowerKill s
  | .linkModuleFail m => Sys2Proof.Machine.execLinkModuleFail m s
  | .hostTimeout access => Sys2Proof.Machine.execHostTimeout access s
  | .boot => Sys2Proof.Machine.execBoot s
  | .attestationRequest nonce off => Sys2Proof.Machine.execAttestationRequest nonce off s
  | .firmwareSwitch arg => Sys2Proof.Machine.execFirmwareSwitch arg s
  | .clusterReplace arg => Sys2Proof.Machine.execClusterReplace arg s
  | .lp6Retrain arg => Sys2Proof.Machine.execLp6Retrain arg s
  | .streamReconfigure arg => Sys2Proof.Machine.execStreamReconfigure arg s
  | .ingressRequest r => Sys2Proof.Machine.execIngressRequest r s
  | .remoteResponse op a => Sys2Proof.Machine.execRemoteResponse op a s
  | .remoteTimeout op => Sys2Proof.Machine.execRemoteTimeout op s
  | .portLossOfLock port => Sys2Proof.Machine.execPortLossOfLock port s
  | .portRetrained link => Sys2Proof.Machine.execPortRetrained link s
  | .illegalOpcode w => Sys2Proof.Machine.execIllegalOpcode w s
  | .hschDelayEnd group => Sys2Proof.Machine.execHschDelayEnd group s
  | .partFailure part => Sys2Proof.Machine.execPartFailure part s
  | .hostMemoryAccess write addr data => Sys2Proof.Machine.execHostMemoryAccess write addr data s
  | .ucieModuleRetrained m => Sys2Proof.Machine.execUcieModuleRetrained m s
  | .dpLinkTrained output => Sys2Proof.Machine.execDpLinkTrained output s

end Sys2Proof.Machine
end

