-- ==== Sys2Proof/Machine/Schedule.lean ====
section
/-! DEFINITION. What happens next (log 1): the steps that the surroundings bring, the words of control cores and cores in a
clock, the steps that the device takes by itself at the end of a clock, and the change of the clock. -/

namespace Sys2Proof.Machine

/-! ### Steps that the device takes by itself -/

/-- The first element of a list to which a function gives a value. -/
def findFirst {α β : Type} (f : α → Option β) : List α → Option β
  | [] => none
  | a :: r => f a <|> findFirst f r

/-- A step, when a test holds. -/
def whenOn (b : Bool) (i : Instr) : Option Instr := if b then some i else none

/-- A request to the device itself, and its answer (R379, R381). (DESIGN CHOICE: log 1) -/
def State.selfEvent (s : State) : Option Instr :=
  let pod := s.fabric.pod.toNat
  findFirst (fun o : RemoteOut =>
    if o.dst ≠ pod then none
    else match s.fabric.served.find? fun x => x.1 == pod && x.2.1 == o.num with
      | none => some (.ingressRequest o.req)
      | some x => some (.remoteResponse o.num.toNat x.2.2)) s.fabric.out

/-- An access goes on (R15, R132, R215). (DESIGN CHOICE: log 7) (DEDUCED: log 10) -/
def State.accessEvent (s : State) : Option Instr :=
  findFirst (fun p : Nat × MemOp =>
    if !s.opMoves p.1 p.2 then none
    else if p.2.brings then some (.pendingValueFill p.1)
    else if p.2.writes then some (.writeComplete p.1)
    else some (.descriptorLoadComplete p.1)) s.ops

/-- A packet is fetched or executed (R346, R349). -/
def State.packetEvent (s : State) : Option Instr :=
  findFirst (fun p : Nat × HostQ =>
    let q := p.1
    whenOn p.2.mayFetch (.packetFetch q) <|>
      if !s.packetMoves q then none
      else match (s.packet q).map fun k => if k.words.isEmpty then 0 else k.kind with
        | some 1 => some (.launch q)
        | some 2 => some (.graph q)
        | some 3 => some (.wait q)
        | some 4 => some (.signal q)
        | some 5 => some (.flush q)
        | some 6 => some (.fetchfence q)
        | _ => some (.packetNop q)) s.hostqs

/-- A chain looks at an entry, waits no longer, or completes one; a binner takes or runs a job (R285, R286, R295, R308).
(DEDUCED: log 28) -/
def State.chainEvent (s : State) : Option Instr :=
  findFirst (fun p : Nat × CtxSt =>
    findFirst (fun q : Nat × Chain =>
      whenOn (s.entryDone p.1 q.1) (.chainEntryComplete p.1 q.1) <|>
      whenOn (s.chainLooks p.1 q.1) (.chainEntryAccept p.1 q.1) <|>
      whenOn (s.runs p.1 q.1 0 && s.entryMoves p.1 q.1) (.chainNop p.1 q.1) <|>
      whenOn (s.chainWaitMet p.1 q.1 && s.entryMoves p.1 q.1) (.chainWait p.1 q.1)) p.2.chains <|>
    findFirst (fun q : Nat × Chain => whenOn (s.binnerMoves p.1 q.1) (.binnerJob p.1 q.1)) p.2.binners) s.ctxs

/-- The engines of a cluster go on: a burst, a pass, a strip (R225, R296, R310, R312). -/
def State.engineEvent (s : State) : Option Instr :=
  findFirst (fun p : Nat × ClusterSt =>
    let cl := p.1
    whenOn (s.copyNext cl).isSome (.copyBurst cl) <|>
    whenOn (s.bruinMoves cl) (.bruinPass cl) <|>
    whenOn (s.quadMoves cl) (.quadRecordPush cl) <|>
    whenOn (s.rasterMoves cl) (.rasterStrip cl) <|>
    whenOn (s.resumable' cl).isSome (.continuationResume cl)) s.clusters

/-- A team's latch, its rays, its end (R174, R219, R318). -/
def State.teamEvent (s : State) : Option Instr :=
  findFirst (fun p : Nat × Team =>
    whenOn (p.2.latchReady.isSome && !(s.ctx p.2.ctx).away) (.issueLatchEnter p.1) <|>
    whenOn (s.rayMoves p.1) (.rayFinish p.1) <|>
    whenOn (s.teamDone p.1) (.teamRetire p.1)) s.teams

/-- A card's place in the retirements of a clock (R193): clusters rising, each in increasing CARDID, then address. -/
def Card.rank (k : Card) : Nat := (k.cluster * 2 ^ 32 + k.id.toNat) * 2 ^ 64 + k.addr.toNat

/-- A card's deadline, and the end of one (R192, R193, R196). -/
def State.cardEvent (s : State) : Option Instr :=
  findFirst (fun p : Nat × Card => whenOn (s.deadlineDue p.1) (.cardDeadline p.1)) s.cards <|>
  (minBy (fun p : Nat × Card => p.2.rank) (s.cards.filter fun p => s.cardDone p.1)).map fun p => .cardRetirement p.1

/-- The Ringmaster's steps of one moment that come before retirements of cards, in the order of R336: abandonments, and the
output cards that retired and abandoned acts make due (R334, R335, R340, R343). -/
def State.streamEvent (s : State) : Option Instr :=
  findFirst (fun p : Nat × Stream => whenOn (s.nextAbandon p.2).isSome (.actAbandon p.1) <|>
    findFirst (fun a : OpenAct => whenOn (a.output && s.deadlineDue a.card) (.cardDeadline a.card)) p.2.acts) s.streams <|>
  findFirst (fun p : Nat × Stream => whenOn p.2.nextClosed.isSome (.actRetire p.1)) s.streams <|>
  findFirst (fun p : Nat × Stream => whenOn p.2.nextOutput.isSome (.outputCardLaunch p.1)) s.streams <|>
  findFirst (fun p : Nat × Stream => whenOn (s.limitDue p.2) (.streamFrameLimit p.1)) s.streams

/-- Act starts, which come last of R336, and the consumers' steps (R320, R321, R331). -/
def State.startEvent (s : State) : Option Instr :=
  findFirst (fun p : Nat × Stream => whenOn (s.actDue p.2) (.actStart p.1)) s.streams <|>
  findFirst (fun p : Nat × Stream => whenOn (s.encoderMoves p.1) (.encoderTileRow p.1)) s.streams <|>
  findFirst (fun o : Nat => whenOn (s.lineMoves o) (.displayLine o)) [0, 1]

/-- A continuation becomes ready or is delivered (R205). (DEDUCED: log 28) -/
def State.deliveryEvent (s : State) : Option Instr :=
  findFirst (fun x : Nat =>
    if (s.ctx x).away || !s.cards.any (fun p => p.2.ctx == x && p.2.records != 0) then none
    else findFirst (fun cl : Nat => whenOn (s.deliverable cl x).isSome (.continuationDelivery x cl)) (List.range 24))
    (s.cards.map fun p => p.2.ctx).eraseDups

/-- A context's trap record is posted, its swap goes on (R269, R271, R277). (DEDUCED: log 28) -/
def State.contextEvent (s : State) : Option Instr :=
  findFirst (fun p : Nat × CtxSt =>
    whenOn (p.2.postable.isSome || p.2.overflows) (.trapRecordPost p.1) <|>
    whenOn (s.swapMoves p.1) (.contextSwapOut p.1) <|> whenOn (s.sliceOver p.1) (.timeSliceExpiry p.1) <|>
    whenOn (s.turnComes p.1) (.contextRestore p.1 [])) s.ctxs

/-- A wait of a thread times out (R135). -/
def State.timeoutEvent (s : State) : Option Instr :=
  findFirst (fun p : Nat × Thread => whenOn (s.timedOut p) (.waitwTimeout p.1)) s.threads

/-- Idle power blocks (R28, R151). -/
def State.powerEvent (s : State) : Option Instr :=
  findFirst (fun p : Nat × CoreSt => findFirst (fun e : Nat × (Bool × Nat) =>
    let bank := e.1 / 384
    let lane := e.1 / 12 % 32
    let block := e.1 % 12
    whenOn (idle512 s e.2 && s.blockLive p.1 bank lane block) (.regBlockRetention p.1 bank lane block)) p.2.power) s.cores <|>
  findFirst (fun p : Nat × ClusterSt => findFirst (fun e : Nat × (Bool × Nat) =>
    whenOn (idle512 s e.2) (.scratchBankRetention p.1 e.1)) p.2.banks) s.clusters

/-- The scrubber's pass over every live segment and shadow storage, in the first clock of each 100 ms: it meets the words
that have an error (R185). (DESIGN CHOICE: log 65) -/
def State.scrubEvent (s : State) : Option Instr :=
  if s.time.scrubbed = s.time.scrubNo then none
  else findFirst (fun f : Nat × Nat =>
    match sliceOf (8 * f.1) with
    | some (cl, off) => whenOn ((f.2 == 1 || f.2 == 2) && (s.segLive cl (off / 4096) || s.isShadow cl off)) (.patrolScrub cl off 0)
    | none => none) s.flaws

/-- Steps of device time and of observation (R325, R355, R360), the scrubber (R185), and a servicing command that waits
(R377). -/
def State.deviceEvent (s : State) : Option Instr :=
  s.scrubEvent <|>
  whenOn s.holds .holdover <|> whenOn s.floorDue (.powerGrant []) <|> whenOn s.budgetDue (.budgetSend (Config.drawWatts s.clk).1 (Config.drawWatts s.clk).2) <|> whenOn s.sampleDue .counterSample <|>
  findFirst (fun p : Nat × ClusterSt => whenOn (s.syncDue p.1) (.traceSyncRecord p.1)) s.clusters <|> s.svcMoves

/-- The deque units' turn in a clock (R199): arriving posts, then deliveries of continuations. It stands between the words of
the cores, which post, and those that take tasks. (DEDUCED: log 32) -/
def State.dequeEvent (s : State) : Option Instr :=
  findFirst (fun p : Nat × PostMsg => some (.remotePost p.1)) s.posts <|> s.deliveryEvent

/-- The number of the deque units' turn among those of a clock. -/
def dequeTurn : Nat := 768

/-- The next step that the device takes by itself at the end of a clock. (DESIGN CHOICE: log 1) -/
def State.ownEvent (s : State) : Option Instr :=
  s.selfEvent <|>
  findFirst (fun o : RemoteOut => whenOn (s.remoteDue o) (.remoteTimeout o.num.toNat)) s.fabric.out <|>
  s.accessEvent <|> s.timeoutEvent <|> s.chainEvent <|> s.teamEvent <|> s.engineEvent <|> s.packetEvent <|>
  s.streamEvent <|> s.contextEvent <|> s.cardEvent <|> s.startEvent <|> whenOn s.placeable .readyQueueScan <|> s.powerEvent <|> s.deviceEvent

/-! ### The clock -/

/-- Cores that take a turn in a clock. -/
def State.activeCores (s : State) : List Nat := s.cores.map Prod.fst

/-- Bins are drawn, parked groups enter the ready set (R142, R145), and the scheduler may request a flip (R276). -/
def State.drawCore (s : State) (core : Nat) : State :=
  let s := nextOr s (execBinDraw core s)
  let s := match s.flipWanted core with
    | some b => s.updCore core fun c => { c with flips := c.flips ++ [b] }
    | none => s
  let s := s.unpark core 0 (vget (s.core core).parked 0 []).length
  let s := s.unpark core 1 (vget (s.core core).parked 1 []).length
  if s.stopHolds core then s.updCore core fun c => { c with stoppedFor := c.stoppedFor + 1 } else s

/-- THE END OF A CLOCK: threads wake, bins are drawn, the trace records of the clock are written, and the next clock
begins, in which every core and every control core with an instruction takes a turn. (DESIGN CHOICE: log 1)
(DESIGN CHOICE: log 7) -/
def State.tick (s : State) : State :=
  let s := s.wakeScan
  let s := s.activeCores.foldl (fun s c => s.drawCore c) s
  let s := (s.clusters.map Prod.fst).foldl (fun s c => s.traceFlush c) s
  { s with clk := s.clk + 1, time := s.time.tick, todo := s.activeCores ++ [dequeTurn],
           ctl := tmap s.ctl fun _ c => { c with turn := c.fetch.isSome } }

/-! ### What is next -/

/-- A constructor that is a step of the device, not a word. -/
def Instr.isEvent (i : Instr) : Bool := (encode i).isNone

/-- A control core executes the word at its pc: an instruction of the extension, an illegal one of custom-0, or a word of
the base instruction set, which is firmware (R351). -/
def State.ctlStep (ex : Instr → State → Host.Outcome State Fault Refusal) (s : State) (k : Nat) :
    Host.Outcome State Fault Refusal :=
  match (s.ctlCore k).fetch with
  | none => .next (s.updCtl k fun c => { c with turn := false })
  | some w =>
    match decodeControl w with
    | some i => ex i s
    | none => if w.toNat % 128 = 0x0B then .next (s.ctlIllegal k w) else .refused .firmwareWord

/-- ONE STEP, with `ex` the meaning of an instruction: the first of a step that the surroundings bring, boot after reset,
a control core's turn, a core's turn, the deque units' (between the cores' words and those that take tasks, R199), a step
that the device takes by itself, the end of the clock. (DESIGN CHOICE: log 1) -/
def State.stepWith (ex : Instr → State → Host.Outcome State Fault Refusal) (s : State) : Host.Outcome State Fault Refusal :=
  if s.package.halted then .fault .deviceHalted
  else
    match s.agenda with
    | i :: r =>
      let s := { s with agenda := r }
      if Instr.isEvent i then ex i s else .next s
    | [] =>
      if !s.package.booted then ex .boot s
      else
        match s.ctlTurn with
        | some k => s.ctlStep ex k
        | none =>
          match s.todo with
          | c :: r =>
            if c = dequeTurn then
              match s.dequeEvent with
              | some i => ex i s
              | none => .next { s with todo := r }
            else s.coreTurn ex c r
          | [] =>
            match s.ownEvent with
            | some i => ex i s
            | none => .next s.tick

/-! ### A word where the next step fetches (log 61) -/

/-- The header of a kernel with every register and hint allowed. -/
def plainHeader : Header :=
  { addr := 0, ver := 3, nreg := 32, xsize := 16, qmask := 0xFF#8, argsz := 0, entry := 64, idem := false, prio := 0,
    fw := [0, 0, 0, 0, 0, 0], tb := 0, ab := 0, fill := 32, age := 512, budget := 0, ectx := List.replicate 14 0xFFFF }

/-- The page that holds the word: 4 KiB at 0x1000, readable, executable, of kind RC. -/
def plainPage : TlbEntry := { ctx := 0, vpn := 1, log := 12, pte := 0x1381#64 }

/-- A running thread of context 0 in slot 0 of core 0: one card, one team, one group whose next word is at 0x1000, and
core 0's turn. (DESIGN CHOICE: log 61) -/
def State.withThread (s : State) : State :=
  let th := { Thread.fresh plainHeader 0 0 0x1000 0 with cond := .inGroup 0, vdead := 0 }
  let g : Group :=
    { core := 0, bank := 0, pc := 0x1000, threads := [0], run := [], runPc := 0x1000, window := none, delayUntil := 0,
      yielded := false, mark := 0, wasReady := false, from' := 0, parked := false, prio := 0,
      part := none }
  let card := { Card.fresh 0 0 (List.replicate 16 0) plainHeader [] 0 with started := true, next := 1, total := 1 }
  let s := (s.updCtx 0 fun c => { c with priv := true, part := 1 }).updCluster 0 fun c => { c with tlbFetch := [plainPage] }
  let s := s.updCore 0 fun c => { c with bankctx := 0x0080, rotation := [0] }
  { s with threads := [(0, th)], groups := [(0, g)], cards := [(0, card)],
           teams := [(0, Team.fresh 0 0 0 0 plainHeader (Vector.replicate 32 0) 0 0 0)], fresh := 1, todo := [192] }

/-- A word is placed where the next step fetches it: a control core's word at core 0's pc, any other as the next word of a
running thread. (DESIGN CHOICE: log 61) -/
def State.placeWord (s : State) (w : IWord) : State :=
  let s := { s with agenda := [], package := { s.package with booted := true, halted := false }, todo := [],
                    ctl := tmap s.ctl fun _ c => { c with turn := false } }
  if (decodeWord w).isNone && w.toNat % 128 = 0x0B then
    s.updCtl 0 fun c => { c with turn := true, code := tset c.code c.pc.toNat w }
  else { s.withThread with mem := writeMem s.mem 0x1000 (leBytes 4 w.toNat) }

end Sys2Proof.Machine
end

