-- ==== Sys2Proof/Safety.lean ====
section
/-! DEFINITION. What counts as a safe run, and the terms in which statements speak of one word of one thread. -/

namespace Sys2Proof.Machine

/-- The memory has its canonical form. -/
def State.memOk (s : State) : Prop := memWf s.mem = true

/-- An outcome is a next state: nothing stops. -/
def outcomeRuns (o : Host.Outcome State Fault Refusal) : Bool :=
  match o with
  | .next _ => true
  | _ => false

/-- A state from which the next step does not stop. -/
def State.goes (s : State) : Prop := outcomeRuns (step s) = true

/-- What a write to memory changes beside memory: dead segments wake and banks are used, watches are hit, and
register words become steps of the agenda, an engine's wait for a line ends; an error under the bytes written is gone. -/
structure Stored (s t : State) : Prop where
  rest : t = { s with mem := t.mem, flaws := t.flaws, clusters := t.clusters, threads := t.threads, ctxs := t.ctxs, agenda := t.agenda }
  clusters : ∀ k, t.cluster k = { s.cluster k with live := (t.cluster k).live, banks := (t.cluster k).banks }
  ctxs : ∀ k, t.ctx k = { s.ctx k with saved := (t.ctx k).saved, chains := (t.ctx k).chains, binners := (t.ctx k).binners }
  chains : ∀ k c, ∃ l, t.chain k c = { s.chain k c with line := l }
  threads : ∀ k, ∃ w, tget t.threads k = (tget s.threads k).map fun th => { th with watch := w }

/-! ### A thread alone at the issue slot -/

/-- The thread as its group's next word sees it: its latches hold values only if the group issued its core's last word
(R18). -/
def seen (s : State) (gid : Nat) (g : Group) (th : Thread) : Thread :=
  if (s.core g.core).lastGroup = some gid then th else { th with b0 := none, b1 := none }

/-- Group `gid` holds the issue slot, its one thread is in slot `sid`, and no lane of its word has been executed. -/
structure Alone (s : State) (gid : Nat) (g : Group) (sid : Nat) (th : Thread) (tm : Team) : Prop where
  issuing : s.issuing = some gid
  group : tget s.groups gid = some g
  only : g.threads = [sid]
  whole : g.part = none
  thread : tget s.threads sid = some th
  inGroup : th.cond = .inGroup gid
  team : tget s.teams th.team = some tm

/-- The values of a form's sources in the thread. -/
def sourcesOf (f : Form) (s : State) (gid : Nat) (g : Group) (sid : Nat) (th : Thread) (tm : Team) : List Val :=
  s.readSrcs sid (seen s gid g th) tm (runHimm g.run) f.srcs []

/-- The word of form `f` executes: the thread is on, the word passes the checks of R44, its queue operands need no wait
(R156), and every source that must be known is. -/
structure Ready (f : Form) (s : State) (gid : Nat) (g : Group) (sid : Nat) (th : Thread) (tm : Team) : Prop
    extends Alone s gid g sid th tm where
  on : th.guard f.guard = true
  hints : runFault tm.hdr g.run = none
  legal : f.check tm.hdr (seen s gid g th) (s.ctx tm.ctx).priv g.window.isSome g.run = none
  queues : s.queueCheck tm f.pops f.queuePushes 0 = .ok
  known : (sourcesOf f s gid g sid th tm).zipIdx.any (fun p => p.1.isPend && !f.raw.contains p.2) = false

/-- A form has no hardware-queue operand. -/
def NoQueue (f : Form) : Prop := f.pops = [] ∧ (f.pushes = 0 ∨ f.dst.bind dstW = none)

/-- The words of a form's sources. -/
def wordsOf (f : Form) (s : State) (gid : Nat) (g : Group) (sid : Nat) (th : Thread) (tm : Team) : List Word :=
  (sourcesOf f s gid g sid th tm).map Val.word

/-- The modifiers of the word at the issue slot (R47). -/
def Group.mods (g : Group) : Mods := Mods.of ((runPart g.run 1).getD 0)

/-- What no word changes beside its own effect: memory, the clusters, cards, accesses, streams, chains and every register
outside the word's thread, but for the issue count of its team, the context's capture count (R361), and the rotation,
issue slot and power blocks of its core. -/
structure WordFrame (s t : State) (gid sid tid core : Nat) : Prop where
  mem : t.mem = s.mem
  clusters : t.clusters = s.clusters
  cards : t.cards = s.cards
  ops : t.ops = s.ops
  posts : t.posts = s.posts
  streams : t.streams = s.streams
  hostqs : t.hostqs = s.hostqs
  ctl : t.ctl = s.ctl
  journal : t.journal = s.journal
  time : t.time = s.time
  series : t.series = s.series
  package : t.package = s.package
  fabric : t.fabric = s.fabric
  agenda : t.agenda = s.agenda
  clk : t.clk = s.clk
  threads : ∀ i, i ≠ sid → tget t.threads i = tget s.threads i
  groups : ∀ i, i ≠ gid → tget t.groups i = tget s.groups i
  teams : ∀ i, tget t.teams i = (tget s.teams i).map fun m => if i = tid then { m with issued := m.issued + 1 } else m
  ctxs : ∀ i, t.ctx i = { s.ctx i with capIssued := (t.ctx i).capIssued }
  cores : ∀ i, t.core i = { s.core i with rotation := (t.core i).rotation, lastGroup := (t.core i).lastGroup,
                                          holder := (t.core i).holder, power := (t.core i).power }
  others : ∀ i, i ≠ core → i ≠ sidCore sid → t.core i = s.core i

/-- The thread is where a word leaves it: `th` with the run's drops done, at PC `pc`, its group there with an empty hint
run. -/
structure At (t : State) (gid sid : Nat) (th : Thread) (run : List IWord) (pc : Word) : Prop where
  thread : tget t.threads sid = some { th.drop run with pc := pc }
  group : ∃ g, tget t.groups gid = some g ∧ g.pc = pc ∧ g.threads = [sid] ∧ g.run = []

/-- The state as the word finds it: latches that hold values only if the group issued its core's last word (R18). -/
def State.asSeen (s : State) (gid : Nat) (g : Group) : State :=
  if (s.core g.core).lastGroup = some gid then s else s.dropLatches g.threads

/-! ### What a word comes to -/

/-- What the word of a thread alone finds: the state and the thread as it sees them, its group and team, the values of its
sources and its modifiers. -/
structure Turn where
  s : State
  gid : Nat
  g : Group
  sid : Nat
  th : Thread
  tm : Team
  vals : List Val
  mods : Mods

/-- Source `i`. -/
def Turn.src (u : Turn) (i : Nat) : Word := (u.vals.map Val.word).getD i 0

/-- The PC after the word. -/
def Turn.next (u : Turn) : Word := u.g.pc + 4

/-- The turn of a thread alone. -/
def turnOf (f : Form) (s : State) (gid : Nat) (g : Group) (sid : Nat) (th : Thread) (tm : Team) : Turn :=
  { s := s.asSeen gid g, gid := gid, g := g, sid := sid, th := seen s gid g th, tm := tm,
    vals := sourcesOf f s gid g sid th tm, mods := g.mods }

/-- The pops of a word's source queues, in order (R156). -/
def Form.popAll (f : Form) (s : State) (tid : Nat) : State := f.pops.foldl (fun s n => s.popQueue tid n) s

/-- What a word has done when it is over: its own effect, the values it writes through WriteDst (R14), and the PC its thread
goes on at. -/
structure Done where
  s : State
  out : List (BitVec 6 × Val) := []
  pc : Word

/-- The effect of a word with its pops and its writes. -/
def Done.state (d : Done) (f : Form) (sid tid : Nat) : State :=
  d.out.foldl (fun s o => s.writeDst sid o.1 o.2) (f.popAll d.s tid)

/-- Word `i` of form `f` completes in every state where it executes alone and `eff` gives its effect; what `eff` gives, with
the pops and writes of its operands, is all it does, so long as that leaves the thread in its group. -/
def Acts (i : Instr) (f : Form) (eff : Turn → Option Done) : Prop :=
  ∀ (s : State) (gid : Nat) (g : Group) (sid : Nat) (th : Thread) (tm : Team), Ready f s gid g sid th tm →
    ∀ d, eff (turnOf f s gid g sid th tm) = some d →
    ∃ t, exec i s = .next t ∧
      ∀ th2 g2, tget (d.state f sid th.team).threads sid = some th2 → tget (d.state f sid th.team).groups gid = some g2 →
        g2.threads = [sid] →
        WordFrame (d.state f sid th.team) t gid sid th.team g.core ∧ At t gid sid th2 g.run d.pc

/-- Word `i` of form `f` completes in every state where it executes alone: it writes the value `val` of its modifiers,
sources and lane through WriteDst (R14); where it names no hardware queue, it changes nothing else. -/
def Computes (i : Instr) (f : Form) (val : State → Nat → Thread → Team → Mods → List Word → Word) : Prop :=
  (∀ (s : State) (gid : Nat) (g : Group) (sid : Nat) (th : Thread) (tm : Team),
    NoQueue f → Ready f s gid g sid th tm →
    ∃ t, exec i s = .next t ∧ WordFrame s t gid sid th.team g.core ∧
      At t gid sid
        ((seen s gid g th).write (f.dst.getD 0)
          (.known (val s sid (seen s gid g th) tm g.mods (wordsOf f s gid g sid th tm))))
        g.run (g.pc + 4))
  ∧ Acts i f fun u => some
      { s := u.s, out := [(f.dst.getD 0, .known (val u.s u.sid u.th u.tm u.mods (u.vals.map Val.word)))], pc := u.next }

/-- Predicate `p` of a thread set to a truth value (R21). -/
def Thread.setPred (th : Thread) (p : BitVec 3) (v : Bool) : Thread :=
  { th with preds := if v then th.preds ||| BitVec.ofNat 8 (2 ^ p.toNat) else th.preds &&& ~~~(BitVec.ofNat 8 (2 ^ p.toNat)) }

/-- Word `i` of form `f` completes in every state where it executes alone: it sets predicate `p` to the value `val`; where
it names no hardware queue, it changes nothing else. -/
def Sets (i : Instr) (f : Form) (p : BitVec 3) (val : State → Nat → Thread → Team → Mods → List Word → Bool) : Prop :=
  (∀ (s : State) (gid : Nat) (g : Group) (sid : Nat) (th : Thread) (tm : Team),
    NoQueue f → Ready f s gid g sid th tm →
    ∃ t, exec i s = .next t ∧ WordFrame s t gid sid th.team g.core ∧
      At t gid sid
        ((seen s gid g th).setPred p (val s sid (seen s gid g th) tm g.mods (wordsOf f s gid g sid th tm)))
        g.run (g.pc + 4))
  ∧ Acts i f fun u => some
      { s := u.s.updThread u.sid fun th => th.setPred p (val u.s u.sid u.th u.tm u.mods (u.vals.map Val.word)), pc := u.next }

/-- Word `i` of form `f` completes in every state where it executes alone and `eff` gives its effect, after which its thread
is in its group no more; what `eff` gives, with the pops of its operands, is all it does. -/
def Leaves (i : Instr) (f : Form) (eff : Turn → Option State) : Prop :=
  ∀ (s : State) (gid : Nat) (g : Group) (sid : Nat) (th : Thread) (tm : Team), Ready f s gid g sid th tm →
    ∀ s1, eff (turnOf f s gid g sid th tm) = some s1 →
    ∃ t, exec i s = .next t ∧
      (tget (f.popAll s1 th.team).groups gid = none →
        WordFrame (f.popAll s1 th.team) t gid sid th.team g.core ∧ tget t.groups gid = none
        ∧ tget t.threads sid = (tget (f.popAll s1 th.team).threads sid).map fun th => th.drop g.run)

/-- A thread that has left its group with its registers as they were and its latches invalid, at PC `pc`. -/
structure Stopped (t : State) (gid sid : Nat) (th : Thread) (pc : Word) (c : Cond) : Prop where
  group : tget t.groups gid = none
  thread : ∃ th2, tget t.threads sid = some th2 ∧ th2.cond = c ∧ th2.pc = pc ∧ th2.b0 = none ∧ th2.b1 = none ∧ th2.q = th.q
    ∧ th2.v = th.v ∧ th2.preds = th.preds ∧ th2.team = th.team ∧ th2.wid = th.wid

/-- The record of a fault of a thread (R111). -/
def recordOf (s : State) (sid : Nat) (th : Thread) (tm : Team) (e : FaultInfo) (pc : Word) : TrapRec :=
  { card := s.cardId tm, extra := BitVec.ofNat 14 e.extra, ctx := tm.ctx, cluster := sidCluster sid, core := sidCore sid % 8,
    bank := sidBank sid, exited := false, replay := e.replay, fatal := decide (e.cls = .freeze), wid := th.wid, code := e.code,
    pc := pc &&& 0x00FFFFFFFFFFFFFC#64, addr := e.addr, owner := some sid, engine := none, clk := s.clk }

/-- Word `i` of form `f`, which executes alone and names no hardware queue, completes with the record of an exception and
its thread halts at its resume PC (R110), whatever else of the core `eff` gives; memory, other threads and other groups
are as they were. -/
def Halts (i : Instr) (f : Form) (h : Halt) (eff : Turn → State × FaultInfo × Word) : Prop :=
  ∀ (s : State) (gid : Nat) (g : Group) (sid : Nat) (th : Thread) (tm : Team), NoQueue f → Ready f s gid g sid th tm →
    tm.frozen = false →
    let d := eff (turnOf f s gid g sid th tm)
    ∃ t, exec i s = .next t ∧ Stopped t gid sid th d.2.2 (.halted h) ∧ t.mem = s.mem ∧ t.ops = s.ops
      ∧ (t.ctx tm.ctx).waiting = insertRec (recordOf s sid th tm d.2.1 g.pc) (s.ctx tm.ctx).waiting
      ∧ (∀ k, k ≠ sid → tget t.threads k = tget s.threads k) ∧ (∀ k, k ≠ gid → tget t.groups k = tget s.groups k)
      ∧ ∀ k, (t.core k).stop = (d.1.core k).stop

/-- Where a thread is after a fault of a class (R110, R112). -/
def FaultInfo.stops (e : FaultInfo) : Cond :=
  match e.cls with
  | .halt h => .halted h
  | _ => .frozen

/-- The state after fault `e` of a thread alone: the thread is out of its group, its saved PC the word's, or the first of its
hint run (R110); its record is raised; a team is frozen and has failed if the class says so (R112); memory, accesses and
the threads of other teams are as they were. -/
structure Faulted (s t : State) (gid : Nat) (g : Group) (sid : Nat) (th : Thread) (tm : Team) (e : FaultInfo) : Prop where
  stopped : Stopped t gid sid th g.runPc e.stops
  mem : t.mem = s.mem
  ops : t.ops = s.ops
  record : (t.ctx tm.ctx).waiting = insertRec (recordOf s sid th tm e g.pc) (s.ctx tm.ctx).waiting
  frozen : e.cls = .freeze → ∃ m, tget t.teams th.team = some m ∧ m.frozen = true ∧ m.failed = true
  others : ∀ k, k ≠ sid → (∀ p ∈ s.threads, p.1 = k → p.2.team ≠ th.team) → tget t.threads k = tget s.threads k

/-- Word `i` of form `f`, which executes alone, takes the exception that `eff` gives (R110). -/
def Faults (i : Instr) (f : Form) (eff : Turn → Option FaultInfo) : Prop :=
  ∀ (s : State) (gid : Nat) (g : Group) (sid : Nat) (th : Thread) (tm : Team), Ready f s gid g sid th tm → tm.frozen = false →
    ∀ e, eff (turnOf f s gid g sid th tm) = some e → e.cls ≠ .note → e.cls ≠ .kill →
    ∃ t, exec i s = .next t ∧ Faulted s t gid g sid th tm e

end Sys2Proof.Machine
end

