-- ==== Sys2Proof/Certificates/Slice0/Obligations.lean ====
section
/-! DEFINITION. The statements for the provers: what each word and each step of the device does, as the rules of spec/
say. -/

open Sys2Proof Sys2Proof.Machine

/-! ### Words that compute one value (R79 to R97) -/

/-- The form of an R-format word with modifiers `m` accepted. -/
def Sys2Proof.Claim.formR (g : BitVec 3) (d : BitVec 6) (a b : BitVec 7) (m : Nat) : Form :=
  { guard := g, srcs := [(0, a), (1, b)], dst := some d, mods := m }

/-- The form of a U-format word with modifiers `m` accepted. -/
def Sys2Proof.Claim.formU (g : BitVec 3) (d : BitVec 6) (a : BitVec 7) (m : Nat) : Form :=
  { guard := g, srcs := [(0, a)], dst := some d, mods := m }

/-- The form of an R3-format word, whose result goes to the queue. -/
def Sys2Proof.Claim.formR3 (g : BitVec 3) (a b c : BitVec 7) (m : Nat) : Form :=
  { guard := g, srcs := [(0, a), (1, b), (2, c)], dst := some 0, mods := m }

/-- Modifiers of an integer word with two sources: SAT if `sat`, and NEG and ABS for the signed types. -/
def Sys2Proof.Claim.intMods (t : BitVec 2) (sat : Bool) : Nat :=
  (if sat then 0x80000 else 0) + if t.toNat % 2 = 0 then 0x1B000 else 0

/-- The result of an integer word of type `t` (R13, R56): the exact value brought to 32 or 64 bits, then extended. -/
def Sys2Proof.Claim.intResult (t : BitVec 2) (sat : Bool) (z : Int) : Word :=
  intPlace (if t.toNat < 2 then 32 else 64) (t.toNat % 2 == 0) (intSat sat (if t.toNat < 2 then 32 else 64) (t.toNat % 2 == 0) z)

/-- Source `i` of an integer word of type `t`, its ABS and NEG modifiers applied (R78). -/
def Sys2Proof.Claim.intSrc (t : BitVec 2) (m : Mods) (w : List Word) (i : Nat) : Int :=
  intMod m i (if t.toNat < 2 then 32 else 64) (t.toNat % 2 == 0) (w.getD i 0)

/-- R80: the integer words complete with the exact sum, difference, product, high half, least, greatest or absolute value
of their sources, brought to the type; `imad` and `iaddi` likewise. -/
def Sys2Proof.Claim.IntegerWordsCompute : Prop :=
  ∀ (g : BitVec 3) (d : BitVec 6) (a b c : BitVec 7) (t : BitVec 2) (u : BitVec 1) (i : BitVec 9),
    Computes (.iadd g d a b t) (Claim.formR g d a b (Claim.intMods t true))
      (fun _ _ _ _ m w => Claim.intResult t m.sat (Claim.intSrc t m w 0 + Claim.intSrc t m w 1))
    ∧ Computes (.isub g d a b t) (Claim.formR g d a b (Claim.intMods t true))
      (fun _ _ _ _ m w => Claim.intResult t m.sat (Claim.intSrc t m w 0 - Claim.intSrc t m w 1))
    ∧ Computes (.imul g d a b t) (Claim.formR g d a b (Claim.intMods t true))
      (fun _ _ _ _ m w => Claim.intResult t m.sat (Claim.intSrc t m w 0 * Claim.intSrc t m w 1))
    ∧ Computes (.imulh g d a b t) (Claim.formR g d a b (Claim.intMods t false))
      (fun _ _ _ _ m w => Claim.intResult t false
        ((Claim.intSrc t m w 0 * Claim.intSrc t m w 1) / 2 ^ (if t.toNat < 2 then 32 else 64)))
    ∧ Computes (.imin g d a b t) (Claim.formR g d a b (Claim.intMods t false))
      (fun _ _ _ _ m w => Claim.intResult t false (min (Claim.intSrc t m w 0) (Claim.intSrc t m w 1)))
    ∧ Computes (.imax g d a b t) (Claim.formR g d a b (Claim.intMods t false))
      (fun _ _ _ _ m w => Claim.intResult t false (max (Claim.intSrc t m w 0) (Claim.intSrc t m w 1)))
    ∧ Computes (.iabs g d a t) (Claim.formU g d a 0x80000)
      (fun _ _ _ _ m w => Claim.intResult t m.sat
        (intOf (if t.toNat < 2 then 32 else 64) (t.toNat % 2 == 0) (w.getD 0 0)).natAbs)
    ∧ Computes (.iaddi g d a i) (Claim.formU g d a 0x89000)
      (fun _ _ _ _ m w => Claim.intResult 2 m.sat (Claim.intSrc 2 m w 0 + i.toInt))
    ∧ Computes (.imad g a b c u) (Claim.formR3 g a b c 0xBF000)
      (fun _ _ _ _ m w => Claim.intResult (2 * u.setWidth 2) m.sat
        (Claim.intSrc (2 * u.setWidth 2) m w 0 * Claim.intSrc (2 * u.setWidth 2) m w 1 + Claim.intSrc (2 * u.setWidth 2) m w 2))

/-- The low bits of source `i` that a bitwise word of type `t` reads: 32 or 64. -/
def Sys2Proof.Claim.low (t : BitVec 1) (w : List Word) (i : Nat) : BitVec 64 :=
  if t = 0 then (w.getD i 0) &&& 0xFFFFFFFF#64 else w.getD i 0

/-- A bitwise result of type `t`, the bits above the type's width written as zero (R13). -/
def Sys2Proof.Claim.cut (t : BitVec 1) (x : BitVec 64) : Word := if t = 0 then x &&& 0xFFFFFFFF#64 else x

/-- Width of a bitwise type. -/
def Sys2Proof.Claim.width (t : BitVec 1) : Nat := if t = 0 then 32 else 64

/-- R81: the logic, shift and bit-count words complete with the result of the table, on 32 or 64 bits. -/
def Sys2Proof.Claim.LogicWordsCompute : Prop :=
  ∀ (g : BitVec 3) (d : BitVec 6) (a b : BitVec 7) (t : BitVec 1),
    Computes (.and g d a b t) (Claim.formR g d a b 0) (fun _ _ _ _ _ w => Claim.low t w 0 &&& Claim.low t w 1)
    ∧ Computes (.or g d a b t) (Claim.formR g d a b 0) (fun _ _ _ _ _ w => Claim.low t w 0 ||| Claim.low t w 1)
    ∧ Computes (.xor g d a b t) (Claim.formR g d a b 0) (fun _ _ _ _ _ w => Claim.low t w 0 ^^^ Claim.low t w 1)
    ∧ Computes (.andn g d a b t) (Claim.formR g d a b 0) (fun _ _ _ _ _ w => Claim.low t w 0 &&& ~~~(Claim.low t w 1))
    ∧ Computes (.shl g d a b t) (Claim.formR g d a b 0)
      (fun _ _ _ _ _ w => Claim.cut t (if Claim.width t ≤ (Claim.low t w 1).toNat then 0
        else Claim.low t w 0 <<< (Claim.low t w 1).toNat))
    ∧ Computes (.shr g d a b t) (Claim.formR g d a b 0)
      (fun _ _ _ _ _ w => if Claim.width t ≤ (Claim.low t w 1).toNat then 0
        else Claim.low t w 0 >>> (Claim.low t w 1).toNat)
    ∧ Computes (.sar g d a b t) (Claim.formR g d a b 0) (fun _ _ _ _ _ w => Claim.cut t
        (BitVec.ofInt 64 ((if t = 0 then ((Claim.low t w 0).setWidth 32).toInt else (Claim.low t w 0).toInt)
          / 2 ^ (min (Claim.low t w 1).toNat (Claim.width t)))))
    ∧ Computes (.rot g d a b t) (Claim.formR g d a b 0) (fun _ _ _ _ _ w =>
        if t = 0 then (((Claim.low t w 0).setWidth 32).rotateLeft ((Claim.low t w 1).toNat % 32)).setWidth 64
        else (Claim.low t w 0).rotateLeft ((Claim.low t w 1).toNat % 64))
    ∧ Computes (.popc g d a t) (Claim.formU g d a 0) (fun _ _ _ _ _ w =>
        BitVec.ofNat 64 ((List.range 64).filter fun i => (Claim.low t w 0).getLsbD i).length)
    ∧ Computes (.clz g d a t) (Claim.formU g d a 0) (fun _ _ _ _ _ w => BitVec.ofNat 64
        (if Claim.low t w 0 = 0 then Claim.width t else Claim.width t - 1 - Nat.log2 (Claim.low t w 0).toNat))
    ∧ Computes (.ctz g d a t) (Claim.formU g d a 0) (fun _ _ _ _ _ w => BitVec.ofNat 64
        (((List.range (Claim.width t)).find? fun i => (Claim.low t w 0).getLsbD i).getD (Claim.width t)))
    ∧ Computes (.brev g d a t) (Claim.formU g d a 0) (fun _ _ _ _ _ w =>
        if t = 0 then (((Claim.low t w 0).setWidth 32).reverse).setWidth 64 else (Claim.low t w 0).reverse)

/-- R80, R81: the integer words, and the logic, shift and bit-count words. -/
def Obligations.IntegerAndLogicWordsCompute : Prop := Claim.IntegerWordsCompute ∧ Claim.LogicWordsCompute

/-- The field that `bfe` reads (R82), as the rule's loop gives it: bit i of the field. -/
def Sys2Proof.Claim.bfeBit (n : Nat) (signed : Bool) (x pos i : Nat) : Bool :=
  if pos + i < n then x.testBit (pos + i) else signed && x.testBit (n - 1)

/-- The result of `bfe` (R82) as an integer. -/
def Sys2Proof.Claim.bfe (n : Nat) (signed : Bool) (x pos len : Nat) : Int :=
  (((List.range len).map fun i => if Claim.bfeBit n signed x pos i then (2 : Int) ^ i else 0).foldl (· + ·) 0)
    - (if signed && 0 < len && Claim.bfeBit n signed x pos (len - 1) then (2 : Int) ^ len else 0)

/-- The result of `bfi` (R83): bit i of the word. -/
def Sys2Proof.Claim.bfiBit (n : Nat) (x y pos len i : Nat) : Bool :=
  i < n && if pos ≤ i && i < pos + len then x.testBit (i - pos) else y.testBit i

/-- A word from its bits. -/
def Sys2Proof.Claim.ofBits (f : Nat → Bool) : Word :=
  BitVec.ofNat 64 ((List.range 64).foldl (fun a i => a + if f i then 2 ^ i else 0) 0)

/-- R82 to R85, R32, R115, R319: the bit-field, address, move and identity words, and `mort` and `bbu`, complete with the
value of their rules. -/
def Obligations.MoveAndFieldWordsCompute : Prop :=
  ∀ (g : BitVec 3) (d : BitVec 6) (a b c : BitVec 7) (t : BitVec 2) (u : BitVec 1) (i : BitVec 9) (sub : BitVec 7),
    Computes (.bfe g d a b t) (Claim.formR g d a b 0) (fun _ _ _ _ _ w =>
      intPlace (tyBits t) (tySigned t) (Claim.bfe (tyBits t) (tySigned t) (w.getD 0 0).toNat ((w.getD 1 0).toNat % 256)
        (min ((w.getD 1 0).toNat / 256 % 256) (tyBits t))))
    ∧ Computes (.bfi g a b c u) (Claim.formR3 g a b c 0) (fun _ _ _ _ _ w =>
      Claim.ofBits (Claim.bfiBit (Claim.width u) (w.getD 0 0).toNat (w.getD 1 0).toNat ((w.getD 2 0).toNat % 256)
        (min ((w.getD 2 0).toNat / 256 % 256) (Claim.width u))))
    ∧ Computes (.lea g d a b t) (Claim.formR g d a b 0) (fun _ _ _ _ _ w => w.getD 0 0 + (w.getD 1 0 <<< t.toNat))
    ∧ Computes (.mov g d a u) (Claim.formU g d a 0) (fun _ _ _ _ _ w => Claim.low u w 0)
    ∧ Computes (.movi g d i) { guard := g, dst := some d } (fun _ _ _ _ _ _ => i.signExtend 64)
    ∧ Computes (.wid g d sub) { guard := g, dst := some d, illegal := !(sub.toNat ≤ 5 || sub == 8 || sub == 9 || sub == 10) }
      (fun _ _ th tm _ _ =>
        if sub.toNat ≤ 5 then BitVec.ofNat 64 (th.wid.toNat / 2 ^ ((tm.hdr.fw.take sub.toNat).foldl (· + ·) 0)
            % 2 ^ (tm.hdr.fw.getD sub.toNat 0))
        else if sub = 8 then th.wid
        else if sub = 9 then th.wid - tm.base
        else th.wid >>> ((tm.hdr.fw.take tm.hdr.tb).foldl (· + ·) 0))
    ∧ Computes (.cvta g d a sub) { Claim.formU g d a 0 with illegal := sub.toNat == 3 || 6 < sub.toNat }
      (fun s _ _ tm _ w =>
        let c := s.ctx tm.ctx
        let base := if sub.toNat % 4 = 0 then c.locbase else if sub.toNat % 4 = 1 then c.shrbase else c.clubase
        let win : Window := if sub.toNat % 4 = 0 then .loc else if sub.toNat % 4 = 1 then .shared else .cluster
        if sub.toNat < 3 then (if (w.getD 0 0).toNat < 2 ^ 32 then base + w.getD 0 0 else 0xFFFFFFFFFFFFFFFF#64)
        else match c.window (w.getD 0 0) with
          | some (x, off) => if x = win then BitVec.ofNat 64 off else 0xFFFFFFFFFFFFFFFF#64
          | none => 0xFFFFFFFFFFFFFFFF#64)
    ∧ Computes (.mort g d a b) (Claim.formR g d a b 0) (fun _ _ _ _ _ w =>
      let x := mortQuant ((w.getD 0 0).toNat % 2 ^ 32)
      let y := mortQuant ((w.getD 0 0).toNat / 2 ^ 32)
      let z := mortQuant ((w.getD 1 0).toNat % 2 ^ 32)
      Claim.ofBits fun k => k < 30 && (if k % 3 = 2 then x.testBit (k / 3) else if k % 3 = 1 then y.testBit (k / 3) else z.testBit (k / 3)))
    ∧ Computes (.bbu g d a b) (Claim.formR g d a b 0) (fun _ _ _ _ _ w =>
      BitVec.ofNat 64 (fltPick true f32 ((w.getD 0 0).toNat / 2 ^ 32) ((w.getD 1 0).toNat / 2 ^ 32) * 2 ^ 32
        + fltPick false f32 ((w.getD 0 0).toNat % 2 ^ 32) ((w.getD 1 0).toNat % 2 ^ 32)))

/-- R163: the trapping forms of `perm`, `ballot`, `ballot.p` and `vote` raise GROUP_SHAPE where the group is not whole. -/
def Sys2Proof.Claim.ShapeFaults (g k p : BitVec 3) (d : BitVec 6) (a b : BitVec 7) (u : BitVec 1) (j : BitVec 6) : Prop :=
  ∀ q ∈ [((.perm g d a b u : Instr), ({ Claim.formR g d a b 0x40 with collective := true } : Form)),
         (.ballot g d a j, { Claim.formU g d a 0x40 with collective := true }),
         (.ballotP g d k, { guard := g, dst := some d, mods := 0x40, collective := true }),
         (.vote g k p a b, { guard := g, srcs := [(0, a), (1, b)], illegal := 5 ≤ k.toNat || p == 0, mods := 0x40,
                             collective := true })],
    Faults q.1 q.2 fun w => if w.mods.trap then some (freezeFault 0x0E 0 0) else none

/-- R86 to R88, R116, R163, R166: the comparison words and `plop` complete with the truth value of their rules in a
predicate. A `vote` of a thread alone sees its own condition; a lane word of the trapping form in a group that is not
whole raises GROUP_SHAPE. -/
def Obligations.PredicateWordsSet : Prop :=
  ∀ (g k p : BitVec 3) (d : BitVec 6) (a b : BitVec 7) (t : BitVec 2) (pa pb : BitVec 3) (l : BitVec 4) (u : BitVec 1)
    (j : BitVec 6),
    Sets (.icmp g k p a b t) { guard := g, srcs := [(0, a), (1, b)], illegal := k == 7 || p == 0,
                               mods := Claim.intMods t false } p
      (fun _ _ _ _ m w =>
        let x := Claim.intSrc t m w 0
        let y := Claim.intSrc t m w 1
        if k = 0 then x == y else if k = 1 then x != y else if k = 2 then x < y else if k = 3 then x ≤ y
        else if k = 4 then y < x else if k = 5 then y ≤ x
        else (BitVec.ofInt (tyBits t) x &&& BitVec.ofInt (tyBits t) y) != 0)
    ∧ Sets (.fcmp g k p a b t) { guard := g, srcs := [(0, a), (1, b)], illegal := p == 0, mods := 0x5B000 } p
      (fun _ _ _ _ m w =>
        let el := fun sh => fcmpCond k (tyFmt t.toNat) (fltMod (tyFmt t.toNat) m 0 ((w.getD 0 0).toNat / 2 ^ sh))
          (fltMod (tyFmt t.toNat) m 1 ((w.getD 1 0).toNat / 2 ^ sh))
        if t.toNat < 2 then el 0 else el 0 && el 16)
    ∧ Sets (.isap g k p a) { guard := g, srcs := [(0, a)], illegal := k == 7 || p == 0 } p
      (fun s _ _ tm _ w =>
        let c := s.ctx tm.ctx
        let x := w.getD 0 0
        let win := (c.window x).map Prod.fst
        if k = 0 then win == some .loc else if k = 1 then win == some .shared else if k = 2 then win == some .cluster
        else if k = 3 then x.toNat < 2 ^ 56 && win == none
        else if k = 4 then 2 ^ 56 ≤ x.toNat && x.toNat < 255 * 2 ^ 56
        else if k = 5 then x.toNat < 2 ^ 56
        else win == some .shared && ((c.window x).map Prod.snd).any fun o => o < tm.allocSegs * 4096)
    ∧ Sets (.plop g p pa pb l) { guard := g, illegal := p == 0 } p
      (fun _ _ th _ _ _ => l.getLsbD (2 * (th.pred pa).toNat + (th.pred pb).toNat))
    ∧ Sets (.vote g k p a b) { guard := g, srcs := [(0, a), (1, b)], illegal := 5 ≤ k.toNat || p == 0, collective := true } p
      (fun _ _ _ _ _ w =>
        let c := w.getD 0 0 &&& w.getD 1 0 != 0
        if k.toNat < 2 then c else if k = 2 then !c else if k = 3 then true else c)
    ∧ Claim.ShapeFaults g k p d a b u j

/-- A float word of type `t` (R58): its elements' results, flushed and clamped (R60, R62), side by side; `op` gives an
element's rounded result from the elements of the sources after FTZ, ABS and NEG (R78). -/
def Sys2Proof.Claim.flt (t : Nat) (m : Mods) (w : List Word) (op : FFmt → List Nat → Nat) : Word :=
  let el := fun sh => (tyFmt t).finish m.ftz m.sat
    (op (tyFmt t) (w.zipIdx.map fun p => fltMod (tyFmt t) m p.2 (p.1.toNat / 2 ^ sh)))
  BitVec.ofNat 64 (if t < 2 then el 0 else el 0 + el 16 * 65536)

/-- The exact value of element `i`. -/
def Sys2Proof.Claim.num (f : FFmt) (x : List Nat) (i : Nat) : Machine.Num := f.decode (x.getD i 0)

/-- R89: the float words complete with their exact sum, difference, product or product-sum rounded once, or with the smaller
or larger operand. -/
def Sys2Proof.Claim.FloatWordsCompute : Prop :=
  ∀ (g : BitVec 3) (d : BitVec 6) (a b c : BitVec 7) (t : BitVec 2) (u : BitVec 1),
    Computes (.fadd g d a b t) (Claim.formR g d a b 0x3DB000) (fun _ _ _ _ m w => Claim.flt t.toNat m w fun f x =>
      f.encode m.rnd (Machine.Num.add (m.rnd == 3) (Claim.num f x 0) (Claim.num f x 1)))
    ∧ Computes (.fsub g d a b t) (Claim.formR g d a b 0x3DB000) (fun _ _ _ _ m w => Claim.flt t.toNat m w fun f x =>
      f.encode m.rnd (Machine.Num.add (m.rnd == 3) (Claim.num f x 0) (Claim.num f x 1).neg))
    ∧ Computes (.fmul g d a b t) (Claim.formR g d a b 0x3DB000) (fun _ _ _ _ m w => Claim.flt t.toNat m w fun f x =>
      f.encode m.rnd (Machine.Num.mul (Claim.num f x 0) (Claim.num f x 1)))
    ∧ Computes (.ffma g a b c u) (Claim.formR3 g a b c 0x3FF000) (fun _ _ _ _ m w => Claim.flt u.toNat m w fun f x =>
      f.encode m.rnd (Machine.Num.add (m.rnd == 3) (Machine.Num.mul (Claim.num f x 0) (Claim.num f x 1)) (Claim.num f x 2)))
    ∧ Computes (.hfma2 g a b c u) (Claim.formR3 g a b c 0x3FF000) (fun _ _ _ _ m w => Claim.flt (2 + u.toNat) m w fun f x =>
      f.encode m.rnd (Machine.Num.add (m.rnd == 3) (Machine.Num.mul (Claim.num f x 0) (Claim.num f x 1)) (Claim.num f x 2)))
    ∧ Computes (.fmin g d a b t) (Claim.formR g d a b 0x5B000) (fun _ _ _ _ m w => Claim.flt t.toNat m w fun f x =>
      fltPick false f (x.getD 0 0) (x.getD 1 0))
    ∧ Computes (.fmax g d a b t) (Claim.formR g d a b 0x5B000) (fun _ _ _ _ m w => Claim.flt t.toNat m w fun f x =>
      fltPick true f (x.getD 0 0) (x.getD 1 0))
    ∧ Computes (.frnd g d a t) (Claim.formU g d a 0x349000) (fun _ _ _ _ m w => Claim.flt t.toNat m w fun f x =>
      fltIntegral m.rnd f (x.getD 0 0))

/-- R90, R91: the special-function words complete with the value of their function, rounded once; the five that take no
`.f64` go through the `.f32` function. Choices of the model it rests on: log 30. -/
def Obligations.SpecialFunctionWordsCompute : Prop :=
  ∀ (g : BitVec 3) (d : BitVec 6) (a : BitVec 7) (t : BitVec 2),
    Computes (.frcp g d a t) (Claim.formU g d a 0x3C9000) (fun _ _ _ _ m w => Claim.flt t.toNat m w fun f x =>
      Fn.apply .rcp f m.rnd (x.getD 0 0))
    ∧ Computes (.frsq g d a t) (Claim.formU g d a 0xC9000) (fun _ _ _ _ m w => Claim.flt t.toNat m w fun f x =>
      Fn.apply .rsq f 0 (x.getD 0 0))
    ∧ Computes (.fsqrt g d a t) (Claim.formU g d a 0x3C9000) (fun _ _ _ _ m w => Claim.flt t.toNat m w fun f x =>
      Fn.apply .sqrt f m.rnd (x.getD 0 0))
    ∧ ∀ p ∈ [((.fex2 g d a t : Instr), Fn.ex2), (.flg2 g d a t, .lg2), (.fsin g d a t, .sin), (.fcos g d a t, .cos),
              (.ftanh g d a t, .tanh)],
        Computes p.1 { Claim.formU g d a 0xC9000 with illegal := t == 1 } (fun _ _ _ _ m w =>
          Claim.flt t.toNat m w fun f x =>
            f.encode 0 (f32.decode (Fn.apply p.2 f32 0 (f32.encode 0 (f.decode (x.getD 0 0))))))

/-- R93 to R97: the conversion words complete with the converted value, and the pack words of a thread alone with the
element that it gets of a block whose other lanes supply +0.0. -/
def Sys2Proof.Claim.ConversionWordsCompute : Prop :=
  ∀ (g : BitVec 3) (d : BitVec 6) (a b : BitVec 7) (x y : BitVec 3) (f u : BitVec 1) (k : BitVec 2),
    Computes (.cvt g d a x y) { Claim.formU g d a ((if 4 ≤ x.toNat ∨ 4 ≤ y.toNat then 0x3C0000 else 0x80000)
                                  + if 4 ≤ y.toNat ∨ y.toNat % 2 = 0 then 0x9000 else 0) with illegal := x == y }
      (fun _ _ _ _ m w => cvtVal m x.toNat y.toNat (w.getD 0 0))
    ∧ Computes (.cvtDxb g d a f k) { Claim.formU g d a 0 with illegal := k == 3, collective := true }
      (fun _ sid _ _ _ w =>
        let q := dxbQuantise (f == 0) (if f = 0 then 4 else 2) ((List.range 32).map fun i =>
          if i = sidLane sid then (cvtFmt (4 + k.toNat)).decode ((w.getD 0 0).toNat % 2 ^ (cvtFmt (4 + k.toNat)).width)
          else .fin false 0 0)
        BitVec.ofNat 64 (q.2.1 * 65536 + q.1 * 256 + q.2.2.getD (sidLane sid) 0))
    ∧ Computes (.qpk g d a b u) { Claim.formR g d a b 0 with collective := true }
      (fun _ sid _ _ _ w =>
        let q := dxbQuantise (u == 0) ((w.getD 1 0).toNat % 16) ((List.range 32).map fun i =>
          if i = sidLane sid then f32.decode ((w.getD 0 0).toNat % 2 ^ 32) else .fin false 0 0)
        BitVec.ofNat 64 (q.2.1 * 65536 + q.1 * 256 + q.2.2.getD (sidLane sid) 0))
    ∧ Computes (.qupk g d a b u) (Claim.formR g d a b 0) (fun _ _ _ _ _ w =>
      BitVec.ofNat 64 (f32.encode 0 (dxbValue (u == 0) ((w.getD 0 0).toNat % (if u = 0 then 256 else 16))
        ((w.getD 1 0).toNat / 256 % 256) ((w.getD 1 0).toNat / 65536 % 256))))

/-- R89, R93 to R97: the floating-point words, and the conversions. -/
def Obligations.FloatAndConversionWordsCompute : Prop := Claim.FloatWordsCompute ∧ Claim.ConversionWordsCompute

/-- R164, R165: `perm`, `ballot` and `ballot.p` of a thread alone complete, unless the trapping form is asked for:
`perm` with the thread's own value, the ballots with its lane above and its bit below. -/
def Obligations.LaneWordsComputeAlone : Prop :=
  ∀ (g : BitVec 3) (d : BitVec 6) (a b : BitVec 7) (u : BitVec 1) (j : BitVec 6) (k : BitVec 3),
    Computes (.perm g d a b u) { Claim.formR g d a b 0 with collective := true } (fun _ _ _ _ _ w => Claim.low u w 0)
    ∧ Computes (.ballot g d a j) { Claim.formU g d a 0 with collective := true } (fun _ sid _ _ _ w =>
      BitVec.ofNat 64 (2 ^ (32 + sidLane sid) + if (w.getD 0 0).getLsbD j.toNat then 2 ^ sidLane sid else 0))
    ∧ Computes (.ballotP g d k) { guard := g, dst := some d, collective := true } (fun _ sid th _ _ _ =>
      BitVec.ofNat 64 (2 ^ (32 + sidLane sid) + if th.pred k then 2 ^ sidLane sid else 0))

/-! ### Control, ending and halting (R34, R98 to R108) -/

/-- The form of a control word (R98). -/
def Sys2Proof.Claim.formC (g : BitVec 3) (ban : Bool) : Form :=
  { guard := g, noHmod := true, noHimm := true, windowBan := ban, control := true }

/-- R34, R102 to R104: `nop` goes on at PC + 4; `bra` and `call` at PC + 4 + 4 × offset, `call` with PC + 4 in v31, live;
`brx` at the value of its source when that is an aligned address of the device. -/
def Obligations.ControlWordsGoOn : Prop :=
  ∀ (g : BitVec 3) (o : BitVec 22) (a : BitVec 7),
    Acts .nop { guard := 0 } (fun u => some { s := u.s, pc := u.g.pc + 4 })
    ∧ Acts (.bra g o) (Claim.formC g true) (fun u => some { s := u.s, pc := u.g.pc + 4 + 4 * o.signExtend 64 })
    ∧ Acts (.call g o)
      { Claim.formC g true with post := fun h => if h.nreg < 32 then some (illegalOperand 3 0x2F) else none }
      (fun u => some
        { s := (u.s.touch u.sid [47]).updThread u.sid fun th =>
            { th with v := vset th.v 31 (.known (u.g.pc + 4)), vdead := th.vdead &&& ~~~(0x80000000#32) },
          pc := u.g.pc + 4 + 4 * o.signExtend 64 })
    ∧ Acts (.brx g a) { Claim.formC g true with srcs := [(0, a)], noHimm := false } (fun u =>
        if (u.src 0).toNat < 2 ^ 56 ∧ (u.src 0).toNat % 4 = 0 then some { s := u.s, pc := u.src 0 } else none)

/-- R105, R106, R202: `reform` files its thread under the target, `exit` ends it, `done` ends every thread of its team. -/
def Sys2Proof.Claim.GroupLeavingWordsLeave : Prop :=
  ∀ (g : BitVec 3) (o : BitVec 22),
    Leaves (.reform g o) (Claim.formC g true)
      (fun u => some ((u.s.leaveGroup u.sid).fileThread u.sid (u.g.pc + 4 + 4 * o.signExtend 64)))
    ∧ Leaves (.exit g) (Claim.formC g true) (fun u => some (u.s.endThread u.sid))
    ∧ Leaves (.done g) { guard := g } (fun u => some
      ((u.s.threads.filter fun p => p.2.team == u.th.team).foldl (fun s p => s.endThread p.1) u.s))

/-- R106: ending a thread ends it: its slot is free when nothing is owed to it, and holds an ended thread otherwise; the
group of a thread alone ceases; other threads and groups, memory, cards and accesses are as they were. -/
def Sys2Proof.Claim.EndThreadEnds : Prop :=
  ∀ (s : State) (gid : Nat) (g : Group) (sid : Nat) (th : Thread),
    tget s.threads sid = some th → th.cond = .inGroup gid → tget s.groups gid = some g → g.threads = [sid] →
    (if th.owed.isEmpty then tget (s.endThread sid).threads sid = none
      else ∃ th2, tget (s.endThread sid).threads sid = some th2 ∧ th2.cond = .ended ∧ th2.owed = th.owed)
    ∧ tget (s.endThread sid).groups gid = none
    ∧ (∀ i, i ≠ sid → tget (s.endThread sid).threads i = tget s.threads i)
    ∧ (∀ i, i ≠ gid → tget (s.endThread sid).groups i = tget s.groups i)
    ∧ (s.endThread sid).mem = s.mem ∧ (s.endThread sid).ops = s.ops ∧ (s.endThread sid).cards = s.cards
    ∧ (s.endThread sid).ctxs = s.ctxs ∧ (s.endThread sid).clusters = s.clusters

/-- R105, R106, R202: words after which a thread is in its group no more, and the end of a thread. -/
def Obligations.ThreadsLeaveTheirGroups : Prop := Claim.GroupLeavingWordsLeave ∧ Claim.EndThreadEnds

/-- R107, R108: `trap` and `bkpt` complete with their record and halt their thread with its resume PC at PC + 4; `bkpt.stop`
also stops the core on this clock where its bank's stop enable is set (R356). -/
def Obligations.TrapWordsHalt : Prop :=
  ∀ (g : BitVec 3) (a : BitVec 7) (n : BitVec 8),
    Halts (.trap g a n) { Claim.formC g false with srcs := [(0, a)] } .softTrap (fun u =>
      (u.s, { code := 0x18, cls := .halt .softTrap, addr := u.src 0, extra := n.toNat, replay := false }, u.g.pc + 4))
    ∧ Halts (.bkpt g) (Claim.formC g false) .breakpoint (fun u =>
      (u.s, { code := 0x17, cls := .halt .breakpoint, addr := 0, extra := 0, replay := false }, u.g.pc + 4))
    ∧ Halts (.bkptStop g) (Claim.formC g false) .breakpoint (fun u =>
      (if (u.s.core (sidCore u.sid)).stopEnabled (sidBank u.sid) && !(u.s.core (sidCore u.sid)).stop.stopped then
        u.s.updCore (sidCore u.sid) fun k =>
          { k with stop := { k.stop with stopped := true, since := u.s.clk, requested := true, dumped := false } } else u.s,
        { code := 0x17, cls := .halt .breakpoint, addr := 0, extra := 1, replay := false }, u.g.pc + 4))

/-! ### The x-file and hardware queues (R153 to R160, R167, R168) -/

/-- R167, R168: `xld` gives a live x-file word, `xst` writes one and makes it live. -/
def Sys2Proof.Claim.XFileWordsMove : Prop :=
  ∀ (g : BitVec 3) (d : BitVec 6) (a b : BitVec 7) (i : BitVec 9) (o : BitVec 8),
    Acts (.xld g d a i) { guard := g, srcs := [(0, a)], dst := some d } (fun u =>
      let ix := (u.src 0 + i.signExtend 64).toNat
      match u.th.x[ix]? with
      | some { val := .known w, dead := false } =>
        if ix < u.tm.hdr.xsize then
          some { s := u.s.touch u.sid [16 + u.tm.hdr.nreg + ix], out := [(d, .known w)], pc := u.g.pc + 4 } else none
      | _ => none)
    ∧ Acts (.xst g a b o) { guard := g, srcs := [(0, a), (1, b)], raw := [0] } (fun u =>
      let ix := (u.src 1 + o.setWidth 64).toNat
      if ix < u.tm.hdr.xsize then some
        { s := (u.s.touch u.sid [16 + u.tm.hdr.nreg + ix]).updThread u.sid fun th =>
            { th with x := th.x.set ix { val := u.vals.getD 0 (.known 0), dead := false } },
          pc := u.g.pc + 4 } else none)

/-- A hardware queue of a team is replaced, and the threads blocked on it wake (R155, R156). -/
def Sys2Proof.Claim.putQueue (s : State) (tid n : Nat) (q : Queue) : State :=
  (s.updTeam tid fun t => { t with w := vset t.w n q }).wakeQueue tid n

/-- R153, R155, R159, R160: `qinit` sets up an empty open queue over its ring, `qstat` gives a queue's state, `qclose` closes
one that is open, and `sdrop` makes the segments of its range dead once no access of the thread is in flight that a store to
them would follow. -/
def Sys2Proof.Claim.QueueWordsAct : Prop :=
  ∀ (g : BitVec 3) (d : BitVec 6) (a b : BitVec 7) (n : BitVec 3),
    Acts (.qinit g a b) { guard := g, srcs := [(0, a), (1, b)] } (fun u =>
      let c := (u.src 1).toNat
      let base := (u.src 0).toNat
      if c < 2 ^ 9 ∧ c / 8 % 2 = 0 ∧ u.tm.hdr.qmask.getLsbD (c % 8) = true ∧ base % 8 = 0
          ∧ base + 8 * 2 ^ (c / 16 % 16) ≤ u.tm.allocSegs * 4096 then some
        { s := Claim.putQueue u.s u.th.team (c % 8)
            { init := true, closed := false, nostamp := c / 256 % 2 == 1, base := base, logCap := c / 16 % 16, head := 0,
              tail := 0, entries := [] },
          pc := u.g.pc + 4 } else none)
    ∧ Acts (.qstat g d n)
      { guard := g, dst := some d,
        pre := fun h => if h.qmask.getLsbD n.toNat then none else some (illegalOperand 0 (0x50 + n.toNat)) } (fun u =>
      let q := u.tm.queue n.toNat
      some { s := u.s, pc := u.g.pc + 4,
             out := [(d, .known (BitVec.ofNat 64 (
               if q.init then q.base * 2 ^ 32 + (if q.nostamp then 2 ^ 22 else 0) + 2 ^ 21 + (if q.closed then 2 ^ 20 else 0)
                 + q.logCap * 2 ^ 16 + q.entries.length
               else if q.closed then 2 ^ 20 else 0)))] })
    ∧ Acts (.qclose g n)
      { guard := g, pre := fun h => if h.qmask.getLsbD n.toNat then none else some (illegalOperand 0 (0x50 + n.toNat)) }
      (fun u => some
        { s := if (u.tm.queue n.toNat).closed then u.s
               else Claim.putQueue u.s u.th.team n.toNat { u.tm.queue n.toNat with closed := true },
          pc := u.g.pc + 4 })
    ∧ Acts (.sdrop g a b) { guard := g, srcs := [(0, a), (1, b)] } (fun u =>
      let o := (u.src 0).toNat
      let n := (u.src 1).toNat
      if o % 4096 = 0 ∧ n % 4096 = 0 ∧ o + n ≤ u.tm.allocSegs * 4096
          ∧ u.s.touches u.sid (sliceLoc (sidCluster u.sid) (u.tm.allocOff + o)) n = false then some
        { s := (List.range (n / 4096)).foldl
            (fun s i => s.killSeg (sidCluster u.sid) ((u.tm.allocOff + o) / 4096 + i)) u.s,
          pc := u.g.pc + 4 } else none)

/-- R153, R155, R159, R160, R167, R168: the words of the x-file, and those of the hardware queues. -/
def Obligations.FilesAndQueuesAct : Prop := Claim.XFileWordsMove ∧ Claim.QueueWordsAct

/-! ### Memory words (R117 to R139) -/

/-- The effective address of a word with base source `i` and offset `o` (R117). -/
def Sys2Proof.Claim.ea (u : Turn) (i : Nat) (o : BitVec 4) (size : Nat) : Word :=
  u.src i + o.signExtend 64 * BitVec.ofNat 64 size

/-- Fields of `hmod` that a load or store of ord `r` accepts (R119): CACHE for a plain one, CACHE and SCOPE for an ordered
one, none for a stream one. -/
def Sys2Proof.Claim.memMods (r : BitVec 2) : Nat := if r = 0 then 0x180 else if r = 3 then 0 else 0xF80

/-- An access of the turn's thread as it is in flight (R241). -/
def Sys2Proof.Claim.inFlight (u : Turn) (s : State) (ps : List Piece) (act : MemAct) (ord : Ord) (wnum : Option Nat) : MemOp :=
  { ctx := u.tm.ctx, sid := u.sid, team := u.th.team, core := sidCore u.sid, bank := sidBank u.sid, pc := u.g.pc,
    wid := u.th.wid, pieces := ps, act := act, ord := ord, scope := BitVec.ofNat 3 u.mods.scope, wnum := wnum,
    logged := false, got := [], retry := false, stuck := false, clk := s.clk, awaited := [] }

/-- A load is issued (R15, R122): it is in flight under the next number, its `n` values pending and owed to the thread. -/
def Sys2Proof.Claim.issueLoad (u : Turn) (s : State) (ps : List Piece) (n : Nat) (act : MemAct) (ord : Ord) : State :=
  let t : State := { s with fresh := s.fresh + n + 1,
                            ops := tset s.ops (s.fresh + n) (Claim.inFlight u s ps act ord none) }
  t.updThread u.sid fun th => { th with owed := th.owed ++ (List.range n).map fun k => (s.fresh + k, u.g.pc) }

/-- A write is issued (R132): it takes the next number of its bank's IW, the dead segments that it touches become live, and
it is in flight. -/
def Sys2Proof.Claim.issueWrite (u : Turn) (s : State) (ps : List Piece) (act : MemAct) (ord : Ord) : State :=
  let c := sidCore u.sid
  let b := sidBank u.sid
  let n := vget (s.core c).iw b 0 + 1
  let s1 := s.updCore c fun k =>
    { k with iw := vset k.iw b n, open' := vset k.open' b (insRise (vget k.open' b []) n) }
  let s2 := ps.foldl (fun s p => if p.mapped then s.wakeRange p.place p.len else s) s1
  { s2 with fresh := s2.fresh + 1, ops := tset s2.ops s2.fresh (Claim.inFlight u s2 ps act ord (some n)) }

/-- R117, R122, R124: a load whose address passes the checks of R120 is in flight at its effective address, its value or
values pending: zero-extended for `ld`, sign-extended for `lds`, two of 8 bytes for `ldq`; `prf` has no effect. -/
def Sys2Proof.Claim.LoadWordsIssue : Prop :=
  ∀ (g : BitVec 3) (d : BitVec 6) (a : BitVec 7) (o : BitVec 4) (z r : BitVec 2),
    (∀ p ∈ [((.ld g d a o z r : Instr), false), (.lds g d a o z r, true)],
      Acts p.1
        { guard := g, srcs := [(0, a)], dst := some d, mods := Claim.memMods r, illegal := p.2 && z == 3 } (fun u =>
        let ord : Ord := if r = 1 then .acquire else if r = 2 then .sc else .plain
        match u.s.access .mem false u.sid (Claim.ea u 0 o (2 ^ z.toNat)) (2 ^ z.toNat) .load (r == 1 || r == 2) with
        | (s1, .ok ps) => some
            { s := Claim.issueLoad u s1 ps 1 (.load [(2 ^ z.toNat, p.2, s1.fresh)]) ord,
              out := [(d, .pend s1.fresh)], pc := u.g.pc + 4 }
        | _ => none))
    ∧ Acts (.ldq g d a o r)
      { guard := g, srcs := [(0, a)], dst := some d, pushes := 2, mods := Claim.memMods r, post := ldqPair d } (fun u =>
        let ord : Ord := if r = 1 then .acquire else if r = 2 then .sc else .plain
        match u.s.access .mem false u.sid (Claim.ea u 0 o 16) 16 .load (r == 1 || r == 2) with
        | (s1, .ok ps) => some
            { s := Claim.issueLoad u s1 ps 2 (.load [(8, false, s1.fresh), (8, false, s1.fresh + 1)]) ord,
              out := if 0x10 ≤ d.toNat ∧ d.toNat < 0x30 then [(d, .pend s1.fresh), (d + 1, .pend (s1.fresh + 1))]
                     else [(d, .pend s1.fresh), (d, .pend (s1.fresh + 1))],
              pc := u.g.pc + 4 }
        | _ => none)
    ∧ Acts (.prf g a o z) { guard := g, srcs := [(0, a)], mods := 0x180 } (fun u => some { s := u.s, pc := u.g.pc + 4 })

/-- R117, R123, R132: a store whose address passes the checks of R120 and lies in this device is a numbered write in flight
at its effective address, with the low bytes of its source or the 16 bytes of its register pair. -/
def Sys2Proof.Claim.StoreWordsIssue : Prop :=
  ∀ (g : BitVec 3) (x a : BitVec 7) (o : BitVec 4) (z r : BitVec 2),
    let ord : Ord := if r = 1 then .release else if r = 2 then .sc else .plain
    Acts (.st g x a o z r) { guard := g, srcs := [(0, x), (1, a)], mods := Claim.memMods r } (fun u =>
      match u.s.access .mem false u.sid (Claim.ea u 1 o (2 ^ z.toNat)) (2 ^ z.toNat) .store (r == 1 || r == 2) with
      | (s1, .ok ps) => if ps.any (fun p => p.path == .remote) then none else some
          { s := Claim.issueWrite u s1 ps (.store (leBytes (2 ^ z.toNat) (u.src 0).toNat)) ord, pc := u.g.pc + 4 }
      | _ => none)
    ∧ Acts (.stq g x a o r)
      { guard := g, srcs := if (selV x).isSome then [(0, x), (0, x + 1), (1, a)] else [(0, x), (0, x), (1, a)],
        mods := Claim.memMods r, pre := stqPair x } (fun u =>
      match u.s.access .mem false u.sid (Claim.ea u 2 o 16) 16 .store (r == 1 || r == 2) with
      | (s1, .ok ps) => if ps.any (fun p => p.path == .remote) then none else some
          { s := Claim.issueWrite u s1 ps (.store (leBytes 8 (u.src 0).toNat ++ leBytes 8 (u.src 1).toNat)) ord,
            pc := u.g.pc + 4 }
      | _ => none)

/-- R117, R122 to R124, R132: loads and stores. -/
def Obligations.LoadAndStoreWordsIssue : Prop := Claim.LoadWordsIssue ∧ Claim.StoreWordsIssue

/-- The effect of an atomic of code `opc` and type `t` (R129, R130): with a returned value it is sequentially consistent and
its value is pending; with the discard destination it is a relaxed write of this device. -/
def Sys2Proof.Claim.atom (u : Turn) (d : BitVec 6) (opc : BitVec 7) (t : BitVec 2) (b c : Word) : Option Done :=
  let n := if t.toNat < 2 then 4 else 8
  match u.s.access .mem false u.sid (u.src 0) n .atomic true with
  | (s1, .ok ps) =>
    if d = 2 then
      if ps.any (fun p => p.path == .remote) then none
      else some { s := Claim.issueWrite u s1 ps (.atomic opc t b c none) .plain, pc := u.g.pc + 4 }
    else
      let s2 := Claim.issueWrite u { s1 with fresh := s1.fresh + 1 } ps (.atomic opc t b c (some s1.fresh)) .sc
      some { s := s2.updThread u.sid fun th => { th with owed := th.owed ++ [(s1.fresh, u.g.pc)] },
             out := [(d, .pend s1.fresh)], pc := u.g.pc + 4 }
  | _ => none

/-- R129, R130: the atomics whose address passes the checks of R120 are in flight as numbered writes, the integer ones under
their type, the bitwise, exchange and float ones on unsigned 32 or 64 bits; `atom.cas` gives its value to the queue. -/
def Obligations.AtomicWordsIssue : Prop :=
  ∀ (g : BitVec 3) (d : BitVec 6) (a b c : BitVec 7) (t : BitVec 2) (z : BitVec 1),
    (∀ p ∈ [((.atomAdd g d a b t : Instr), 0x55#7), (.atomMin g d a b t, 0x56), (.atomMax g d a b t, 0x57)],
      Acts p.1 { guard := g, srcs := [(0, a), (1, b)], dst := some d, mods := 0xF80 }
        (fun u => Claim.atom u d p.2 t (u.src 1) 0))
    ∧ (∀ p ∈ [((.atomAnd g d a b z : Instr), 0x58#7), (.atomOr g d a b z, 0x59), (.atomXor g d a b z, 0x5A),
              (.atomXchg g d a b z, 0x5B), (.atomFadd g d a b z, 0x5D)],
      Acts p.1 { guard := g, srcs := [(0, a), (1, b)], dst := some d, mods := 0xF80 }
        (fun u => Claim.atom u d p.2 (if z = 0 then 1 else 3) (u.src 1) 0))
    ∧ Acts (.atomCas g a b c z) { guard := g, srcs := [(0, a), (1, b), (2, c)], dst := some 0, mods := 0xF80 }
        (fun u => Claim.atom u 0 0x5C (if z = 0 then 1 else 3) (u.src 1) (u.src 2))

/-- R131, R133 to R135, R137 to R139, R308: a fence or drain that waits for nothing, a watch of a range that passes
the checks of R120, a wait whose outcome is known, a tail of a chain or a binner's ring of the context and a timeline
wait that is reached complete. -/
def Obligations.OrderingWordsComplete : Prop :=
  ∀ (g : BitVec 3) (d : BitVec 6) (a b k : BitVec 7),
    Acts (.fence g k) { guard := g, illegal := 3 < k.toNat, mods := 0xE00 } (fun u =>
      if u.s.fenceWaits u.sid k.toNat then none else some { s := u.s, pc := u.g.pc + 4 })
    ∧ Acts (.drain g k) { guard := g, illegal := 3 < k.toNat } (fun u =>
      if u.s.drainWaits (sidCore u.sid) (sidBank u.sid) k.toNat = false ∧ u.s.opsOf u.sid = [] then
        some { s := u.s, pc := u.g.pc + 4 } else none)
    ∧ Acts (.watch g a b) { guard := g, srcs := [(0, a), (1, b)] } (fun u =>
      let n := (u.src 1).toNat
      if 1 ≤ n ∧ n ≤ 4096 ∧ (u.src 0).toNat % 4096 + n ≤ 4096 ∧ (u.src 0).toNat < 2 ^ 56 then
        match u.s.access .mem false u.sid (u.src 0) n .load false with
        | (s1, .ok ps) => some
            { s := s1.updThread u.sid fun th =>
                { th with watch := some { ranges := ps.map fun p => (p.place / 64 * 64, (p.place + p.len + 63) / 64 * 64),
                                          hit := false } },
              pc := u.g.pc + 4 }
        | _ => none
      else none)
    ∧ Acts (.waitw g d a) { guard := g, srcs := [(0, a)], dst := some d, windowBan := true } (fun u =>
      match u.th.watch with
      | none => some { s := u.s, out := [(d, .known 2)], pc := u.g.pc + 4 }
      | some w =>
        if w.hit then some
          { s := u.s.updThread u.sid fun th => { th with watch := none }, out := [(d, .known 0)], pc := u.g.pc + 4 }
        else if u.src 0 = 0 then some { s := u.s, out := [(d, .known 1)], pc := u.g.pc + 4 } else none)
    ∧ Acts (.tail g a b) { guard := g, srcs := [(0, a), (1, b)] } (fun u =>
      let n := (u.src 0).toNat
      if n < 0x2000 ∧ u.s.namesEctx u.tm.ctx n = true ∧ u.s.fenceWaits u.sid 3 = false then some
        { s := Claim.issueWrite u u.s [] (.tail (if n < 64 then n else 64 + n % 4096) (u.src 1)) .release, pc := u.g.pc + 4 }
      else none)
    ∧ Acts (.waittl g a k) { guard := g, srcs := [(0, a)], windowBan := true, post := tlAbsent k.toNat } (fun u =>
      if (u.src 0).toNat ≤ (u.s.teamTimeline u.tm k.toNat).toNat then some { s := u.s, pc := u.g.pc + 4 } else none)

/-- R139: `tlrd` completes with the current counter of a bound timeline, and orders nothing; a sub above 15 or an unbound
timeline is ILLEGAL_OPERAND with position 1 and sub in [8:2]; the two words of the rule decode to the two `tlrd` they stand
for. -/
def Obligations.TimelineReadPushesTheCounter : Prop :=
  (∀ (g : BitVec 3) (d : BitVec 6) (k : BitVec 7),
    Computes (.tlrd g d k) { guard := g, dst := some d, pre := tlAbsent k.toNat }
      (fun s _ _ tm _ _ => s.teamTimeline tm k.toNat))
  ∧ (∀ (g : BitVec 3) (d : BitVec 6) (k : BitVec 7),
    Faults (.tlrd g d k) { guard := g, dst := some d } fun u =>
      if 15 < k.toNat ∨ tlBound u.tm.hdr k.toNat = false then some (freezeFault 0x02 0 (1 + 4 * k.toNat)) else none)
  ∧ (∀ (h : Header) (i : Nat), 15 < i ∨ tlBound h i = false → tlAbsent i h = some (freezeFault 0x02 0 (1 + 4 * i)))
  ∧ (∀ (h : Header) (i : Nat), i ≤ 15 → tlBound h i = true → tlAbsent i h = none)
  ∧ decodeWord 0xEE000000 = some (.tlrd 0 0 0) ∧ decodeWord 0xEE160004 = some (.tlrd 0 0x16 1)

/-! ### Rendezvous and convergence (R175 to R183, R223) -/

/-- A point of a team, and that point set. -/
def Sys2Proof.Claim.putPoint (s : State) (tid i : Nat) (p : Point) : State := s.updTeam tid fun t => { t with rv := vset t.rv i p }

/-- A convergence register of a team set. -/
def Sys2Proof.Claim.putConv (s : State) (tid i : Nat) (c : Conv) : State := s.updTeam tid fun t => { t with cv := vset t.cv i c }

/-- R177 to R179, R182, R183, R223: `rvinit` and `cvinit` set the size of an idle point or register, `arrive` counts
an arrival of a thread that is not ahead, `waitrv` of an arrived phase goes on, `msign` counts a signature and `marm`
holds a command; the last signature of an armed register, or the arming of a signed one, issues the command. -/
def Sys2Proof.Claim.RendezvousWordsCount : Prop :=
  ∀ (g : BitVec 3) (i : BitVec 6) (a : BitVec 7),
    Acts (.rvinit g i a) { guard := g, srcs := [(0, a)], post := indexBelow 24 i } (fun u =>
      let c := (u.src 0).toNat
      let p := u.s.point u.th.team i.toNat
      if c ≠ 0 ∧ c ≤ u.tm.count ∧ p.cur = 0 ∧ p.nxt = 0 then some
        { s := Claim.putPoint u.s u.th.team i.toNat { p with exp := c }, pc := u.g.pc + 4 } else none)
    ∧ Acts (.arrive g i) { guard := g, post := indexBelow 24 i, mods := 0xE00 } (fun u =>
      if (u.s.point u.th.team i.toNat).exp ≠ 0 ∧ u.th.ah.getLsbD i.toNat = false ∧ u.s.fenceWaits u.sid 3 = false then some
        { s := u.s.arriveAt u.sid u.th.team i.toNat (u.th.pb.getLsbD i.toNat), pc := u.g.pc + 4 } else none)
    ∧ Acts (.waitrv g i) { guard := g, post := indexBelow 24 i, mods := 0xE00, windowBan := true } (fun u =>
      if (u.s.point u.th.team i.toNat).exp ≠ 0 ∧ u.th.pb.getLsbD i.toNat = false ∧ u.th.ah.getLsbD i.toNat = false
          ∧ u.s.fenceWaits u.sid 2 = false then some { s := u.s, pc := u.g.pc + 4 } else none)
    ∧ Acts (.msign g i) { guard := g, post := indexBelow 16 i, mods := 0xE00 } (fun u =>
      let r := u.s.conv u.th.team i.toNat
      if r.cnt ≠ 0 ∧ r.sig ≠ r.cnt ∧ u.s.fenceWaits u.sid 3 = false then
        let q := { r with sig := r.sig + 1 }
        some { s := if q.sig = q.cnt ∧ q.armed = true then u.s.issueConv u.th.team i.toNat q
                    else Claim.putConv u.s u.th.team i.toNat q,
               pc := u.g.pc + 4 }
      else none)
    ∧ Acts (.marm g i a) { guard := g, srcs := [(0, a)], post := indexBelow 16 i, windowBan := true } (fun u =>
      let r := u.s.conv u.th.team i.toNat
      if r.cnt ≠ 0 ∧ r.armed = false ∧ r.latch = none then
        let q := { r with cmd := u.src 0, armed := true }
        some { s := if q.sig = q.cnt then u.s.issueConv u.th.team i.toNat q else Claim.putConv u.s u.th.team i.toNat q,
               pc := u.g.pc + 4 }
      else none)

/-- R182: `cvinit` of a thread alone: a size that is zero or above the team's thread count is ILLEGAL_OPERAND at
position 0, a register that is signed or armed is RV_BUSY with EXTRA 0x20 + index, and otherwise CNT becomes the size. -/
def Sys2Proof.Claim.ConvergenceInitSetsTheSize : Prop :=
  ∀ (g : BitVec 3) (i : BitVec 6) (a : BitVec 7),
    Acts (.cvinit g i a) { guard := g, srcs := [(0, a)], post := indexBelow 16 i } (fun u =>
      let c := (u.src 0).toNat
      let r := u.s.conv u.th.team i.toNat
      if c ≠ 0 ∧ c ≤ u.tm.count ∧ r.sig = 0 ∧ r.armed = false then some
        { s := Claim.putConv u.s u.th.team i.toNat { r with cnt := c }, pc := u.g.pc + 4 } else none)
    ∧ Faults (.cvinit g i a) { guard := g, srcs := [(0, a)], post := indexBelow 16 i } (fun u =>
      let c := (u.src 0).toNat
      let r := u.s.conv u.th.team i.toNat
      if c = 0 ∨ u.tm.count < c then some (freezeFault 0x02 0 (4 * a.toNat))
      else if r.sig ≠ 0 ∨ r.armed = true then some (freezeFault 0x0F 0 (0x20 + i.toNat)) else none)

/-- R177 to R179, R182, R183, R223: rendezvous words, and `cvinit`. -/
def Obligations.RendezvousAndConvergenceWordsAct : Prop := Claim.RendezvousWordsCount ∧ Claim.ConvergenceInitSetsTheSize

/-! ### Tasks (R198 to R204) -/

/-- R200, R201: a `post` to a core of the caller's cluster adds its handle and gives the outcome, one to another cluster is
sent and its outcome is pending; `work` and `work.try` take the task that R201 names and start it, and `work.try` gives 0
where there is none. Choices of the model it rests on: log 28, 29. -/
def Sys2Proof.Claim.TaskWordsAct : Prop :=
  ∀ (g : BitVec 3) (d : BitVec 6) (a b : BitVec 7),
    Acts (.post g d a b) { guard := g, srcs := [(0, a), (1, b)], dst := some d } (fun u =>
      let h := u.src 0
      match postTarget (u.src 1) (sidCore u.sid) with
      | none => none
      | some core =>
        if h.toNat < 2 ^ 56 ∧ (u.s.ctx u.tm.ctx).window h = none ∧ h.toNat % 128 = 0
            ∧ (u.s.ctx u.tm.ctx).part.getLsbD (core / 8) = true ∧ u.s.fenceWaits u.sid 3 = false then
          if core / 8 = sidCluster u.sid then some
            { s := (u.s.addHandle u.tm.ctx core h).1,
              out := [(d, .known (BitVec.ofNat 64 (u.s.addHandle u.tm.ctx core h).2))], pc := u.g.pc + 4 }
          else
            let tok := u.s.fresh
            let t : State := { u.s with fresh := u.s.fresh + 2,
                                        posts := tset u.s.posts (u.s.fresh + 1)
                                          { ctx := u.tm.ctx, sid := u.sid, tok := tok, handle := h, core := core } }
            some { s := t.updThread u.sid fun th => { th with owed := th.owed ++ [(tok, u.g.pc)] },
                   out := [(d, .pend tok)], pc := u.g.pc + 4 }
        else none)
    ∧ ∀ p ∈ [((.work g d : Instr), true), (.workTry g d, false)],
      Acts p.1 { guard := g, dst := some d, windowBan := true } (fun u =>
        match u.s.takeTask u.tm.ctx (sidCore u.sid) with
        | none => if p.2 then none else some { s := u.s, out := [(d, .known 0)], pc := u.g.pc + 4 }
        | some (h, s1) =>
          if h.toNat / 2 ^ 56 = 0xFF then some
            { s := s1.resumeOrWait { ctx := u.tm.ctx, core := sidCore u.sid, cluster := h.toNat / 2 ^ 16 % 32,
                                     index := h.toNat % 2 ^ 16 },
              out := [(d, .known h)], pc := u.g.pc + 4 }
          else
            match s1.accept u.tm.ctx h .work (sidCluster u.sid) (fun k => { k with prefer := some (sidCore u.sid) }) with
            | (_, .wait) => none
            | (s2, _) => some { s := s2, out := [(d, .known h)], pc := u.g.pc + 4 })

/-- R198, R200: a handle goes to the bottom of the first part of the context on the core that has room; with no entry
allotted the outcome is 2, with every part full it is 1, and nothing else happens. Choices of the model it rests on:
log 28. -/
def Sys2Proof.Claim.PostedHandlesGoToTheBottom : Prop :=
  ∀ (s : State) (ctx core : Nat) (h : Word),
    (((s.core core).banksOf ctx).all (fun b => (s.core core).partSize b == 0) = true → s.addHandle ctx core h = (s, 2))
    ∧ (((s.core core).banksOf ctx).any (fun b => (s.core core).partSize b != 0) = true →
      ((s.core core).banksOf ctx).all (fun b => (s.core core).partSize b ≤ (vget (s.core core).deque b []).length) = true →
      s.addHandle ctx core h = (s, 1))
    ∧ ∀ b r, ((s.core core).banksOf ctx).filter (fun b => (vget (s.core core).deque b []).length < (s.core core).partSize b)
        = b :: r →
      (s.addHandle ctx core h).2 = 0 ∧ ∃ t : State,
        t = s.updCore core (fun c => { c with deque := vset c.deque b (h :: vget c.deque b []) })
        ∧ (s.addHandle ctx core h).1 = t.wakeWork (core / 8) ctx

/-- R198, R200, R201: `post` and `work`. -/
def Obligations.TaskWordsActOnDeques : Prop := Claim.TaskWordsAct ∧ Claim.PostedHandlesGoToTheBottom

/-- R203, R204: `susp` and `susp.now` of a thread whose mask, timeline and pool are in order write the record into the lowest
free place of the pool, count it on the card and end the thread. Choices of the model it rests on: log 22, 27. -/
def Obligations.SuspendWordsLeaveARecord : Prop :=
  ∀ (g : BitVec 3) (k : BitVec 6) (a b : BitVec 7),
    ∀ p ∈ [((.susp g k a b : Instr),
              ({ guard := g, srcs := [(0, a), (1, b)], illegal := 15 < k.toNat, windowBan := true } : Form), some k.toNat),
           (.suspNow g b, { guard := g, srcs := [(1, b)], windowBan := true }, none)],
      Leaves p.1 p.2.1 (fun u =>
        let cl := sidCluster u.sid
        let n := if p.2.2.isSome then u.src 0 else 0
        let m := if p.2.2.isSome then u.src 1 else u.src 0
        if m.toNat < 2 ^ 48 ∧ popCount 64 m.toNat ≤ 16 ∧ m.toNat % 2 ^ 32 / 2 ^ u.tm.hdr.nreg = 0
            ∧ (∀ i, p.2.2 = some i → tlBound u.tm.hdr i = true) ∧ u.s.poolSize cl u.tm.ctx ≠ 0 ∧ u.th.maskPends m = false
            ∧ u.s.fenceWaits u.sid 3 = false then
          match u.s.freeRecord cl u.tm.ctx, tget u.s.cards u.tm.card with
          | some i, some c =>
            let ectx := match p.2.2 with
              | none => 0
              | some t => if t < 2 then 0xFFFF else u.tm.hdr.ectx.getD (t - 2) 0xFFFF
            match u.s.agentWrite u.tm.ctx (u.s.recordAddr cl u.tm.ctx i) false
                ((recordWords u.tm.ctx (sidLane u.sid) c u.th u.g.pc p.2.2.isNone ectx n m u.s.ns u.s.freeCtr).flatMap
                  fun w => leBytes 8 w.toNat) with
            | none => none
            | some s1 =>
              let s2 := (s1.useFree).updCard u.tm.card fun k => { k with records := k.records + 1 }
              let s3 := match p.2.2 with
                | some t => if t < 2 then s2.updCluster cl fun c =>
                    { c with ownTl := (u.tm.ctx, i, u.th.team, t)
                        :: c.ownTl.filter fun q => !(q.1 == u.tm.ctx && q.2.1 == i) } else s2
                | none => s2
              some (s3.endThread u.sid)
          | _, _ => none
        else none)

/-! ### Descriptors and the Bruin queue (R215 to R219, R226 to R236) -/

/-- R215, R216, R232: `tdld` of an aligned snapshot that passes the checks of R120 is in flight, its table entry
loading and its result pending; `tdinv` empties a table entry; `mcf` and `mcf.2` write coefficient registers.
Choices of the model it rests on: log 33. -/
def Sys2Proof.Claim.DescriptorWordsAct : Prop :=
  ∀ (g : BitVec 3) (d : BitVec 6) (a b : BitVec 7) (n : BitVec 4),
    Acts (.tdld g d a b) { guard := g, srcs := [(0, a), (1, b)], dst := some d, mods := 0x180 } (fun u =>
      let id := (u.src 1).toNat
      if id < 4096 ∧ (u.src 0).toNat % 64 = 0 then
        match u.s.access .mem false u.sid (u.src 0) 192 .load false with
        | (s1, .ok ps) =>
          let s2 := (Claim.issueLoad u s1 ps 1 (.descriptor id s1.fresh) .plain)
          some { s := s2.updCtx u.tm.ctx fun c => { c with desc := tset c.desc id (.loading (s1.fresh + 1)) },
                 out := [(d, .pend s1.fresh)], pc := u.g.pc + 4 }
        | _ => none
      else none)
    ∧ Acts (.tdinv g a) { guard := g, srcs := [(0, a)] } (fun u =>
      let id := (u.src 0).toNat
      if id < 4096 ∧ u.s.ownLoad u.sid id = false then some
        { s := u.s.updCtx u.tm.ctx fun c => { c with desc := tdel c.desc id }, pc := u.g.pc + 4 } else none)
    ∧ Acts (.mcf g a n) { guard := g, srcs := [(0, a)], minVer := 3 } (fun u => some
      { s := u.s.updTeam u.th.team fun t => { t with cf := vset t.cf n.toNat ((u.src 0).setWidth 32) }, pc := u.g.pc + 4 })
    ∧ Acts (.mcf2 g a n) { guard := g, srcs := [(0, a)], minVer := 3, illegal := n.toNat % 2 == 1 } (fun u => some
      { s := u.s.updTeam u.th.team fun t =>
          { t with cf := vset (vset t.cf n.toNat ((u.src 0).setWidth 32)) (n.toNat + 1) ((u.src 0 >>> 32).setWidth 32) },
        pc := u.g.pc + 4 })

/-- A command enters a team's queue as the next that it accepts (R218), with what it captures (R217, R234). -/
def Sys2Proof.Claim.enter (u : Turn) (s : State) (cmd : BCmd) (wnum tok : Option Nat) : State :=
  let e : BEntry := { cmd := cmd, sid := u.sid, snaps := cmd.names.map fun id => (id, s.captureDesc u.tm.ctx id),
                      cf := u.tm.cf.toList, wnum := wnum, tok := tok }
  s.updTeam u.th.team fun t => { t with bruin := { t.bruin with cmds := t.bruin.cmds ++ [e],
                                                                accepted := u.tm.bruin.accepted + 1,
                                                                since := if t.bruin.cmds = [] then (s.cluster (t.core / 8)).bruinServed
                                                                         else t.bruin.since } }

/-- The number that a command entered next gets (R218). -/
def Sys2Proof.Claim.number (u : Turn) : Word := BitVec.ofNat 64 (u.tm.bruin.accepted + 1)

/-- R218, R219, R226 to R228, R233, R234: a command enters the team's queue when there is a place and what it releases
is done, and gives its number; `mst` is a numbered write of its bank; `mpoly` and `miter` take a control word of their
layout, and the status of `miter` is pending. Choices of the model it rests on: log 34. -/
def Sys2Proof.Claim.BruinWordsEnter : Prop :=
  ∀ (g : BitVec 3) (d : BitVec 6) (a b : BitVec 7) (n : BitVec 4),
    (∀ p ∈ [((.mzero g d n : Instr), BCmd.mzero n.toNat), (.mzeroRel g d n, .mzeroRel n.toNat)],
      Acts p.1 { guard := g, dst := some d, mods := 0xE00, windowBan := true } (fun u =>
        if u.tm.bruinFull = false ∧ u.s.fenceWaits u.sid 3 = false then some
          { s := Claim.enter u u.s p.2 none none, out := [(d, .known (Claim.number u))], pc := u.g.pc + 4 } else none))
    ∧ Acts (.mld g d a b) { guard := g, srcs := [(0, a), (1, b)], dst := some d, mods := 0xE00, windowBan := true } (fun u =>
        if (u.src 0).toNat < 2 ^ 16 ∧ u.tm.bruinFull = false ∧ u.s.fenceWaits u.sid 3 = false then some
          { s := Claim.enter u u.s (.mld (u.src 0) (u.src 1)) none none, out := [(d, .known (Claim.number u))],
            pc := u.g.pc + 4 } else none)
    ∧ Acts (.mst g d a b) { guard := g, srcs := [(0, a), (1, b)], dst := some d, mods := 0xE00, windowBan := true } (fun u =>
        if (u.src 0).toNat < 2 ^ 16 ∧ u.tm.bruinFull = false ∧ u.s.fenceWaits u.sid 3 = false then
          let q := u.s.issueWrite (sidCore u.sid) (sidBank u.sid)
          some { s := Claim.enter u q.1 (.mst (u.src 0) (u.src 1)) (some q.2) none, out := [(d, .known (Claim.number u))],
                 pc := u.g.pc + 4 }
        else none)
    ∧ Acts (.mpoly g d a) { guard := g, srcs := [(0, a)], dst := some d, minVer := 3, windowBan := true } (fun u =>
        if mpolyBad (u.src 0) = false ∧ u.tm.bruinFull = false then some
          { s := Claim.enter u u.s (.mpoly (u.src 0)) none none, out := [(d, .known (Claim.number u))],
            pc := u.g.pc + 4 } else none)
    ∧ Acts (.miter g d a b)
      { guard := g, srcs := [(0, a), (1, b)], dst := some d, minVer := 3, mods := 0x40, windowBan := true } (fun u =>
        if miterBad (u.src 0) = false ∧ u.src 1 ≠ 0 ∧ (u.src 1).toNat < 2 ^ 8 ∧ u.tm.bruinFull = false then
          let tok := u.s.fresh
          let s1 := Claim.enter u { u.s with fresh := tok + 1 } (.miter (u.src 0) (u.src 1).toNat u.mods.trap) none (some tok)
          some { s := s1.updThread u.sid fun th => { th with owed := th.owed ++ [(tok, u.g.pc)] },
                 out := [(d, .pend tok)], pc := u.g.pc + 4 }
        else none)

/-- R215 to R234: descriptors, and the words that feed a team's matrix queue. -/
def Obligations.DescriptorAndBruinWordsAct : Prop := Claim.DescriptorWordsAct ∧ Claim.BruinWordsEnter

/-! ### Shading words (R303 to R318) -/

/-- The sample of a texture (R315): the checks of its view done and its texels' addresses passing those of R120, the
sample is in flight and its colour pending. -/
def Sys2Proof.Claim.sample (u : Turn) (d : BitVec 6) (id : Nat) (lod : BitVec 32) : Option Done :=
  match tget (u.s.ctx u.tm.ctx).desc id with
  | some (.valid x) =>
    if dView x.words = 2 ∧ texCheck x.words = none then
      match u.s.texPieces u.sid (txBytes x.words) (texels x.words (u.src 0) lod) [] with
      | (s1, .ok ps) => some
          { s := Claim.issueLoad u s1 ps 1 (.texture x (u.src 0) lod s1.fresh) .plain, out := [(d, .pend s1.fresh)],
            pc := u.g.pc + 4 }
      | _ => none
    else none
  | _ => none

/-- R303, R312, R315, R318: `tex` samples at level 0 and `texf` at its level; `rq` of a well-formed record is the next
ray of its team's queue, its hit record pending or due to a hardware queue; `pixw` of a well-formed record of the
team's render act is one numbered write of the pixels of its block, if its mask bit is set. Choices of the model it
rests on: log 38, 42. -/
def Obligations.ShadingWordsIssue : Prop :=
  ∀ (g : BitVec 3) (d : BitVec 6) (a b : BitVec 7),
    Acts (.tex g d a b) { guard := g, srcs := [(0, a), (1, b)], dst := some d } (fun u =>
      if (u.src 1).toNat < 2 ^ 12 then Claim.sample u d (u.src 1).toNat 0 else none)
    ∧ Acts (.texf g d a b) { guard := g, srcs := [(0, a), (1, b)], dst := some d } (fun u =>
      if (u.src 1).toNat < 2 ^ 48 ∧ (u.src 1).toNat / 2 ^ 12 % 16 = 0 then
        Claim.sample u d ((u.src 1).toNat % 2 ^ 12) (((u.src 1) >>> 16).setWidth 32) else none)
    ∧ Acts (.rq g d a b)
      { guard := g, srcs := [(0, a), (1, b)], dst := some d, enginePush := true, windowBan := true } (fun u =>
        if (u.src 0).toNat % 64 = 0 ∧ (u.src 1).toNat % 128 = 0 then
          match u.s.access .mem false u.sid (u.src 0) 40 .load false with
          | (s1, .ok ps) =>
            let ws := leWords 5 (ps.flatMap fun p => s1.readLoc p.place p.len)
            let s2 := ps.foldl (fun s p => s.noteRead p.place p.len) s1
            if ps.any (fun p => decide (p.path = .remote)) = false ∧ s1.ownOverlap u.sid ps = false
                ∧ (wordAt ws 4).toNat < 4 ∧ u.tm.rays.rays.length < 256 ∧ s2.fenceWaits u.sid 3 = false then
              let q := ({ s2 with fresh := s2.fresh + 1 } : State).issueWrite (sidCore u.sid) (sidBank u.sid)
              let s3 := q.1.updTeam u.th.team fun t =>
                { t with rays := { t.rays with
                    rays := t.rays.rays ++ [{ num := t.rays.accepted + 1, sid := u.sid, tok := some s2.fresh, dst := d, words := ws,
                                              addr := u.src 0, place := (ps.head?.filter fun p => p.page.isNone).map Piece.place, root := u.src 1,
                                              wnum := q.2, found := none }],
                    accepted := t.rays.accepted + 1 } }
              some { s := s3.updThread u.sid fun th => { th with owed := th.owed ++ [(s2.fresh, u.g.pc)] },
                     out := [(if (dstW d).isSome then 0 else d, .pend s2.fresh)], pc := u.g.pc + 4 }
            else none
          | _ => none
        else none)
    ∧ Acts (.pixw g a b) { guard := g, srcs := [(0, a), (1, b)] } (fun u =>
      match u.tm.act with
      | none => none
      | some act =>
        let od := (u.s.stream act.stream).odesc
        let q := quadBlock (u.src 0)
        if act.output = false ∧ (u.src 0).toNat < 2 ^ 63 ∧ bits (u.src 0) 36 34 = 0 ∧ bits (u.src 0) 62 60 ≤ 4
            ∧ q.1 < odRW od ∧ q.2.1 < odRH od then some
          { s := Claim.issueWrite u u.s
              (if (u.src 0).getLsbD (56 + bits (u.src 0) 33 32) then
                (blockPixels od act.strip q).map fun p =>
                  { place := odPixel od (odRunning od act.frame act.strip) p.1 (odHL od + p.2), len := 8, va := 0, kind := .rc,
                    path := .cluster, page := none, gva := 0, mapped := true }
                else [])
              (.pixel (u.src 0) (u.src 1)) .plain,
            pc := u.g.pc + 4 }
        else none)

/-! ### System words (R264 to R266) -/

/-- A control word of `tlbi` that keeps its layout (R264): bits 63 to 16 and 8 to 2 zero, a kind below 3. -/
def Sys2Proof.Claim.tlbiWord (c : Word) : Bool := c.toNat < 2 ^ 16 && c.toNat / 4 % 128 == 0 && c.toNat % 4 != 3

/-- The entries of `es` that a `tlbi` of control word `c` and address `va` does not name (R264): an address in a context, a
context, or all are named. -/
def Sys2Proof.Claim.tlbiKeep (c : Word) (va : Nat) (es : List TlbEntry) : List TlbEntry :=
  es.filter fun e => !(match c.toNat % 4 with
    | 0 => e.covers (c.toNat / 2 ^ 10) va
    | 1 => e.ctx == c.toNat / 2 ^ 10
    | _ => true)

/-- What a `tlbi` drops (R264): the entries that it names leave every TLB and every walker of the device, and with INGR the
ingress translator's. -/
def Sys2Proof.Claim.tlbiDrop (s : State) (c : Word) (va : Nat) : State :=
  let t : State := { s with clusters := tmap s.clusters fun _ k =>
    { k with tlbMem := Claim.tlbiKeep c va k.tlbMem, tlbMatrix := Claim.tlbiKeep c va k.tlbMatrix,
             tlbCopy := Claim.tlbiKeep c va k.tlbCopy, tlbFetch := Claim.tlbiKeep c va k.tlbFetch,
             walks := k.walks.filter fun e => !(match c.toNat % 4 with
               | 0 => e.ctx == c.toNat / 2 ^ 10 && e.vpn == va / 2 ^ e.log
               | 1 => e.ctx == c.toNat / 2 ^ 10
               | _ => true) } }
  if c.getLsbD 9 then { t with fabric := { t.fabric with tlb := Claim.tlbiKeep c va t.fabric.tlb } } else t

/-- R264 to R266: `sysr` gives the register, `sysw` in a context with PRIV writes it, and `tlbi` with PRIV takes the entries
that its control word names from every TLB at once; it completes when no access that used them is in flight, and waits at
issue for those that are. -/
def Sys2Proof.Claim.SystemWordsAct : Prop :=
  ∀ (g : BitVec 3) (d : BitVec 6) (a b n : BitVec 7),
    Computes (.sysr g d n) { guard := g, dst := some d, illegal := 0x13 < n.toNat } (fun s sid _ tm _ _ =>
      s.sysReg sid tm n.toNat)
    ∧ Acts (.sysw g a n) { guard := g, srcs := [(0, a)], illegal := 0x13 < n.toNat, priv := true } (fun u => some
      { s := u.s.writeSysReg u.tm.ctx u.sid n.toNat (u.src 0), pc := u.g.pc + 4 })
    ∧ Acts (.tlbi g a b) { guard := g, srcs := [(0, a), (1, b)], priv := true } (fun u =>
      if Claim.tlbiWord (u.src 1) then
        if u.th.dropped then
          if u.s.ops.any (fun p => p.2.awaited.contains u.sid) then none else some
            { s := u.s.updThread u.sid fun th => { th with dropped := false }, pc := u.g.pc + 4 }
        else if u.s.ops.any (fun p => p.2.translatedBy ((u.src 1).toNat % 4) ((u.src 1).toNat / 2 ^ 10)
            ((u.src 0).toNat % 2 ^ 56)) then none
        else some { s := Claim.tlbiDrop u.s (u.src 1) ((u.src 0).toNat % 2 ^ 56), pc := u.g.pc + 4 }
      else none)
    ∧ ∀ (s : State) (gid : Nat) (gr : Group) (sid : Nat) (th : Thread) (tm : Team),
      Ready { guard := g, srcs := [(0, a), (1, b)], priv := true } s gid gr sid th tm → th.dropped = false →
      let u := turnOf { guard := g, srcs := [(0, a), (1, b)], priv := true } s gid gr sid th tm
      let used := fun o : MemOp => o.translatedBy ((u.src 1).toNat % 4) ((u.src 1).toNat / 2 ^ 10) ((u.src 0).toNat % 2 ^ 56)
      Claim.tlbiWord (u.src 1) = true → s.ops.any (fun p => used p.2) = true →
      exec (.tlbi g a b) s = .next
        { (Claim.tlbiDrop s (u.src 1) ((u.src 0).toNat % 2 ^ 56)).updThread sid (fun th => { th with dropped := true }) with
            ops := tmap s.ops fun _ o => if used o then { o with awaited := sid :: o.awaited } else o, stalled := true }

/-- A word takes the issue slot of its group as a hint (R45): it joins the run, whose first word stays the saved PC, and the
group and its threads go on at PC + 4; their registers, memory and everything else are as they were, but for latches that
were not the group's (R18). -/
def Sys2Proof.Claim.joins (i : Instr) (w : BitVec 32) : Prop :=
  ∀ (s : State) (gid : Nat) (g : Group), s.issuing = some gid → tget s.groups gid = some g →
    ∃ t, exec i s = .next t
      ∧ tget t.groups gid = some
          { g with pc := g.pc + 4, run := g.run ++ [w], runPc := if g.run.isEmpty then g.pc else g.runPc, mark := 0 }
      ∧ (∀ k, k ≠ gid → tget t.groups k = tget s.groups k)
      ∧ (∀ k, tget t.threads k
          = (tget (s.asSeen gid g).threads k).map fun th => if k ∈ g.threads then { th with pc := g.pc + 4 } else th)
      ∧ t.mem = s.mem ∧ t.clusters = s.clusters ∧ t.cards = s.cards ∧ t.ops = s.ops ∧ t.clk = s.clk

/-- R45 to R49: every hint word joins the run of its group, as the word of its kind and payload. -/
def Sys2Proof.Claim.HintWordsJoinTheRun : Prop :=
  ∀ (p : BitVec 22) (r h : BitVec 2) (y f t : BitVec 1) (n a c : BitVec 3) (d : BitVec 4) (m : BitVec 16) (x k : BitVec 10),
    Claim.joins (.himm p) (BitVec.ofNat 32 (0x7F * 2 ^ 25 + p.toNat))
    ∧ Claim.joins (.hmod r y f n a c h t) (BitVec.ofNat 32 (0x7F * 2 ^ 25 + 1 * 2 ^ 22 + r.toNat * 2 ^ 20 + y.toNat * 2 ^ 19
        + f.toNat * 2 ^ 18 + n.toNat * 2 ^ 15 + a.toNat * 2 ^ 12 + c.toNat * 2 ^ 9 + h.toNat * 2 ^ 7 + t.toNat * 2 ^ 6))
    ∧ Claim.joins (.hsch y d) (BitVec.ofNat 32 (0x7F * 2 ^ 25 + 2 * 2 ^ 22 + y.toNat * 2 ^ 21 + d.toNat * 2 ^ 17))
    ∧ Claim.joins (.hdropLo m) (BitVec.ofNat 32 (0x7F * 2 ^ 25 + 3 * 2 ^ 22 + m.toNat))
    ∧ Claim.joins (.hdropHi m) (BitVec.ofNat 32 (0x7F * 2 ^ 25 + 4 * 2 ^ 22 + m.toNat))
    ∧ Claim.joins (.hdropX x k) (BitVec.ofNat 32 (0x7F * 2 ^ 25 + 5 * 2 ^ 22 + x.toNat * 2 ^ 12 + k.toNat * 2 ^ 2))

/-- R45 to R49, R264, R265: the system words, and the hint words. -/
def Obligations.SystemAndHintWordsAct : Prop := Claim.SystemWordsAct ∧ Claim.HintWordsJoinTheRun

/-! ### Exceptions of any word (R14, R44, R110 to R112) -/

/-- Nothing keeps the word of form `f` of an on thread from issuing: no source that it must know is pending, and no queue
operand waits (R150, R156). -/
def Sys2Proof.Claim.Issues (f : Form) (s : State) (gid : Nat) (g : Group) (sid : Nat) (th : Thread) (tm : Team) : Prop :=
  th.guard f.guard = true →
    f.waitsFor s sid (seen s gid g th) tm g.run = false ∧ s.queueCheck tm f.pops f.queuePushes 0 ≠ .wait

/-- R41, R44, R110, R112: a word of any form that can issue and whose first failing check gives `e` takes that exception,
whatever the word does otherwise; a hint run that is itself at fault takes the run's, on or off. -/
def Sys2Proof.Claim.CheckedWordsFault : Prop :=
  ∀ (f : Form) (act : Lane → State → LaneOut) (s : State) (gid : Nat) (g : Group) (sid : Nat) (th : Thread) (tm : Team),
    Alone s gid g sid th tm → tm.frozen = false → Claim.Issues f s gid g sid th tm →
    (∀ e, runFault tm.hdr g.run = some e → ∃ t, f.run act s = .next t ∧ Faulted s t gid g sid th tm e)
    ∧ ∀ e, runFault tm.hdr g.run = none → th.guard f.guard = true →
      f.check tm.hdr (seen s gid g th) (s.ctx tm.ctx).priv g.window.isSome g.run = some e → e.cls ≠ .note →
      e.cls ≠ .kill →
      ∃ t, f.run act s = .next t ∧ Faulted s t gid g sid th tm e

/-- R41, R112: a word that decodes to no instruction and is no hint word raises ILLEGAL_OPCODE in a thread that is on, and
the team is frozen. -/
def Sys2Proof.Claim.IllegalOpcodeFaults : Prop :=
  ∀ (w : BitVec 32) (s : State) (gid : Nat) (g : Group) (sid : Nat) (th : Thread) (tm : Team),
    decodeWord w = none → w.toNat / 2 ^ 25 ≠ 0x7F →
    Alone s gid g sid th tm → tm.frozen = false → runFault tm.hdr g.run = none →
    th.guard (BitVec.ofNat 3 (w.toNat / 2 ^ 22)) = true →
    ∃ t, exec (.illegalOpcode w) s = .next t ∧ Faulted s t gid g sid th tm (freezeFault 0x01 0 1)

/-- R41, R44, R110 to R112: a word that fails a check takes its exception, and one that is no instruction raises
ILLEGAL_OPCODE. -/
def Obligations.ChecksRaiseFaults : Prop := Claim.CheckedWordsFault ∧ Claim.IllegalOpcodeFaults

/-- R14, R37: a word of any form, in a thread whose guard is false, goes on at PC + 4 with q0 and b0 as they were: the
queue and the latches shift as for an on thread, nothing is popped, and nothing else happens. -/
def Obligations.OffThreadsOnlyShift : Prop :=
  ∀ (f : Form) (act : Lane → State → LaneOut) (s : State) (gid : Nat) (g : Group) (sid : Nat) (th : Thread) (tm : Team),
    Alone s gid g sid th tm → runFault tm.hdr g.run = none → th.guard f.guard = false →
    ∃ t, f.run act s = .next t ∧ WordFrame s t gid sid th.team g.core
      ∧ At t gid sid
          (match f.dst with
            | some d => (List.range f.pushes).foldl (fun th _ => th.writeOff d) (seen s gid g th)
            | none => seen s gid g th)
          g.run (g.pc + 4)

/-! ### Control cores (R351) -/

/-- Register `i` of a control core: x0 reads as zero. -/
def Sys2Proof.Claim.x (s : State) (k : Nat) (i : BitVec 5) : Word := if i = 0 then 0 else vget (s.ctlCore k).x i.toNat 0

/-- A control core's turn ends with `w` in register `d`, x0 apart, and its pc 4 further. -/
def Sys2Proof.Claim.ctlNext (s : State) (k : Nat) (d : BitVec 5) (w : Word) : State :=
  s.updCtl k fun c => { c with turn := false, pc := c.pc + 4, x := if d = 0 then c.x else vset c.x d.toNat w }

/-- A control core's instruction ends with `w` in register `d`, x0 apart, and its pc 4 further. -/
def Sys2Proof.Claim.ctlWrites (s : State) (k : Nat) (d : BitVec 5) (w : Word) : State :=
  s.updCtl k fun c => { c with pc := c.pc + 4, x := if d = 0 then c.x else vset c.x d.toNat w }

/-- A control core's turn ends with an exception of the extension (R351). -/
def Sys2Proof.Claim.ctlTraps (s : State) (k : Nat) (cause : Nat) (val : Word) : State :=
  s.updCtl k fun c => { (c.trap (BitVec.ofNat 64 cause) val) with turn := false }

/-- R351: the words of the control extension on core `k`, whose turn it is: `cx.rfetch` gives the number of the packet that
stands first in a queue of the core, or all ones; `cx.bfx` a bit field; `cx.swait` a timeline that has reached its value;
`cx.disp` accepts a card and gives its journal number. An argument outside its values is the exception of the rule.
Choices of the model it rests on: log 21, 58. -/
def Obligations.ControlCoreWordsAct : Prop :=
  ∀ (a b d : BitVec 5) (s : State) (k : Nat), s.ctlTurn = some k →
    (∀ q, Claim.x s k a = BitVec.ofNat 64 q → q < 256 → q % 4 = k → (s.hostq q).fetched = [] →
      exec (.cxRfetch a d) s = .next (Claim.ctlNext s k d 0xFFFFFFFFFFFFFFFF#64))
    ∧ (∀ q p r, Claim.x s k a = BitVec.ofNat 64 q → q < 256 → q % 4 = k → (s.hostq q).fetched = p :: r →
      exec (.cxRfetch a d) s = .next
        (Claim.ctlNext (s.updCtl k fun c => { c with packet := p.words, fetchQ := q }) k d p.num))
    ∧ (255 < (Claim.x s k a).toNat ∨ (Claim.x s k a).toNat % 4 ≠ k →
      exec (.cxRfetch a d) s = .next (Claim.ctlTraps s k 24 (Claim.x s k a)))
    ∧ (∀ pos len, Claim.x s k b = BitVec.ofNat 64 (len * 256 + pos) → 0 < len → len < 64 → pos + len ≤ 64 →
      exec (.cxBfx b a d) s = .next (Claim.ctlNext s k d (BitVec.ofNat 64 ((Claim.x s k a).toNat / 2 ^ pos % 2 ^ len))))
    ∧ ((Claim.x s k b).toNat / 256 = 0 →
      exec (.cxBfx b a d) s = .next (Claim.ctlTraps s k 25 (Claim.x s k b)))
    ∧ (∀ n, Claim.x s k a = BitVec.ofNat 64 n → n < 2 ^ 16 → s.namesEctx (s.hostq (s.ctlCore k).fetchQ).ctx n = true →
      (Claim.x s k b).toNat ≤ (s.timeline (s.hostq (s.ctlCore k).fetchQ).ctx n).toNat →
      exec (.cxSwait b a d) s = .next (Claim.ctlNext s k d (s.timeline (s.hostq (s.ctlCore k).fetchQ).ctx n)))
    ∧ (2 ^ 16 ≤ (Claim.x s k a).toNat →
      exec (.cxSwait b a d) s = .next (Claim.ctlTraps s k 26 (Claim.x s k a)))
    ∧ (∀ t id, (s.updCtl k fun c => { c with turn := false }).cardAddrBad (s.hostq (s.ctlCore k).fetchQ).ctx (Claim.x s k a)
          = none →
      (s.updCtl k fun c => { c with turn := false }).accept (s.hostq (s.ctlCore k).fetchQ).ctx (Claim.x s k a) .launch
        (bits (wordAt (s.ctlCore k).packet 2) 4 0) (fun c => c) = (t, .ok id) →
      exec (.cxDisp a d) s = .next (Claim.ctlWrites t k d (BitVec.ofNat 64 (((tget t.cards id).bind Card.journal).getD 0))))
    ∧ ((s.updCtl k fun c => { c with turn := false }).cardAddrBad (s.hostq (s.ctlCore k).fetchQ).ctx (Claim.x s k a) ≠ none →
      exec (.cxDisp a d) s = .next (Claim.ctlTraps s k 27 (Claim.x s k a)))
/-! ### Events of a core -/

/-- LCYC of a cluster (R354): its clocks so far, those since its last change of clock at the present one. -/
def Sys2Proof.Claim.lcyc (s : State) (cl : Nat) : Nat :=
  ((s.cluster cl).lcycAcc + (s.clk - (s.cluster cl).lcycAt) * (s.cluster cl).fmhz) / 1700 % 2 ^ 48

/-- Vector 64 fires (R364). -/
def Sys2Proof.Claim.fired (s : State) : State :=
  { s with package := { s.package with msix := insRise s.package.msix 64,
                                       interrupts := tset s.package.interrupts 64 (tgetD s.package.interrupts 64 0 + 1) } }

/-- The state with a record of a traced cluster added to those of its clock (R355): word 0 holds the kind, the context and
the clock, word 1 is `w`. -/
def Sys2Proof.Claim.traced (s : State) (cl kind core ctx : Nat) (w : Word) : State :=
  if (s.cluster cl).trace.en then
    s.updCluster cl fun c => { c with trace := { c.trace with
      buf := c.trace.buf ++ [(kind, core, BitVec.ofNat 64 (kind * 2 ^ 60 + ctx % 64 * 2 ^ 54 + Claim.lcyc s cl), w)] } }
  else s

/-- R28, R48, R151: a block of registers or of scratchpad that has been Full and unused for 512 clocks goes to Retention, its
contents kept; a group whose DELAY has run out is issuable again, with a mark of zero. -/
def Sys2Proof.Claim.IdleTimersEnd : Prop :=
  ∀ (s : State) (core bank lane block cl gid : Nat) (e : Bool × Nat) (g : Group), e.1 = true → e.2 + 512 ≤ s.clk →
    (tget (s.core core).power ((bank * 32 + lane) * 12 + block) = some e → s.blockLive core bank lane block = true →
      exec (.regBlockRetention core bank lane block) s = .next (s.updCore core fun c =>
        { c with power := tset c.power ((bank * 32 + lane) * 12 + block) (false, e.2) }))
    ∧ (tget (s.cluster cl).banks block = some e →
      exec (.scratchBankRetention cl block) s = .next (s.updCluster cl fun c => { c with banks := tset c.banks block (false, e.2) }))
    ∧ (tget s.groups gid = some g → g.delayUntil ≠ 0 → g.delayUntil ≤ s.clk →
      exec (.hschDelayEnd gid) s = .next (s.updGroup gid fun g => { g with delayUntil := 0, mark := 0, wasReady := false }))

/-- R145, R146: at the end of a core's clock every bin that is due is drawn once. The draw of one bin takes the oldest thread
of each lane, in lane order; they are filed there no more and form one group at the bin's key, with invalid latches,
issuable from the next clock; memory and every other thread are as they were. Choices of the model it rests on: log 16. -/
def Obligations.DueBinsAreDrawnOnce : Prop :=
  ∀ (s : State) (core bank : Nat) (b : Bin), s.dueBins core = [(bank, b.key)] → bank < 2 →
    (vget (s.core core).bins bank []).find? (fun x => x.key == b.key) = some b →
    ∃ t g, exec (.binDraw core) s = .next t ∧ t.mem = s.mem ∧ tget t.groups s.fresh = some g
      ∧ g.core = core ∧ g.bank = bank ∧ g.pc = b.key ∧ g.run = [] ∧ g.from' = s.clk + 1
      ∧ g.threads = ((List.range 32).filterMap fun l => (b.filed.find? fun x => sidLane x.1 == l).map Prod.fst)
      ∧ (∀ x ∈ vget (t.core core).bins bank [], x.key = b.key → x.filed = b.filed.filter fun y => !g.threads.contains y.1)
      ∧ (∀ k, tget t.threads k = (tget s.threads k).map fun th =>
          if k ∈ g.threads then { th with cond := .inGroup s.fresh, pc := b.key, b0 := none, b1 := none } else th)
      ∧ ∀ k, k ≠ s.fresh → tget t.groups k = tget s.groups k

/-- R109: where the group at the issue slot is to issue a word of a team whose count has reached its BUDGET, the word is not
executed: its first thread takes WATCHDOG, with the count in ADDR, and the team is frozen and has failed.
Choices of the model it rests on: log 18. -/
def Sys2Proof.Claim.SpentBudgetFreezesTheTeam : Prop :=
  ∀ (s : State) (gid tid sid : Nat) (g : Group) (th : Thread) (tm : Team), s.issuing = some gid → tget s.groups gid = some g →
    tget s.teams tid = some tm → s.firstOf g tid = some sid → tget s.threads sid = some th → tm.frozen = false →
    tm.hdr.budget ≠ 0 → tm.hdr.budget ≤ tm.issued →
    ∃ t m, exec (.watchdog tid) s = .next t ∧ t.mem = s.mem ∧ tget t.teams tid = some m ∧ m.frozen = true ∧ m.failed = true
      ∧ m.issued = tm.issued
      ∧ (t.ctx tm.ctx).waiting = insertRec
          (recordOf s sid th tm { code := 0x16, cls := .freeze, addr := BitVec.ofNat 64 tm.issued, extra := 0, replay := false } g.pc)
          (s.ctx tm.ctx).waiting

/-- R27, R49, R135: a thread blocked in `waitw` whose timeout has passed with no hit pushes 1 and is filed under its PC; its
watch stays armed, and a destination that its hint run dropped (`x`) is dead. Choices of the model it rests on: log 15. -/
def Sys2Proof.Claim.WatchTimeoutPushesOne : Prop :=
  ∀ (s : State) (sid lim : Nat) (th : Thread) (tm : Team) (d : BitVec 6) (x : Bool), tget s.threads sid = some th →
    tget s.teams th.team = some tm → th.cond = .blocked (.watch d (some lim) x) → lim ≤ s.ns → (th.watch.any Watch.hit) = false →
    tm.canPush d = true → Machine.dstW d = none →
    (∀ x ∈ vget (s.core (sidCore sid)).bins (sidBank sid) [], ∀ y ∈ x.filed, y.1 ≠ sid) →
    ∃ t, exec (.waitwTimeout sid) s = .next t ∧ t.mem = s.mem
      ∧ tget t.threads sid = some { th.write d (.known 1) with
          cond := .filed, b0 := none, b1 := none,
          vdead := if x then (th.write d (.known 1)).vdead ||| BitVec.ofNat 32 (2 ^ (d.toNat - 0x10))
                   else (th.write d (.known 1)).vdead }
      ∧ ∃ x ∈ vget (t.core (sidCore sid)).bins (sidBank sid) [], x.key = th.pc ∧ x.filed.any (fun y => y.1 == sid) = true

/-- R28, R48, R109, R135, R151: what ends when its time is over: delays, power blocks, a budget, a `waitw`. -/
def Obligations.IdleAndSpentTimesEnd : Prop := Claim.IdleTimersEnd ∧ Claim.SpentBudgetFreezesTheTeam ∧ Claim.WatchTimeoutPushesOne

/-- R276: a requested flip lands where no latch window, hint run or stop is open and none is in progress: the incoming bank
becomes issuable 32 clocks later, and the latches of the core's groups are invalid; the capture of the context that is taken
out counts it (R361) and a FLIP record is written (R355). A request for the bank in force completes at once, with no effect.
When the 32 clocks are over the incoming bank is in force, and a FLIP record is written.
Choices of the model it rests on: log 17. -/
def Sys2Proof.Claim.BankFlipsLandAndComplete : Prop :=
  ∀ (s : State) (core b at' : Nat) (rest : List Nat), (s.core core).flips = b :: rest ∨ (s.core core).flip = .landing b at' →
    ((s.core core).flips = b :: rest → (s.core core).flip = .idle → (s.core core).holder = none →
      (s.core core).stop.stopped = false →
      ((s.core core).inForce = some b →
        exec (.bankFlipLand core) s = .next (s.updCore core fun c => { c with flips := rest }))
      ∧ ((s.core core).inForce ≠ some b → ∃ t, exec (.bankFlipLand core) s = .next t
        ∧ t = { s with cores := t.cores, clusters := t.clusters, ctxs := t.ctxs, threads := t.threads }
        ∧ t.core core = { s.core core with flips := rest, flip := .landing b (s.clk + 32), lastGroup := none }
        ∧ (∀ k, k ≠ core → t.core k = s.core k)
        ∧ (∀ k, t.ctx k = { s.ctx k with capSwaps := (t.ctx k).capSwaps })
        ∧ (∀ k, t.cluster k = { s.cluster k with trace := (t.cluster k).trace })
        ∧ ∀ k, tget t.threads k = (tget s.threads k).map fun th =>
            if s.groups.any (fun g => g.2.core == core && g.2.threads.contains k) then { th with b0 := none, b1 := none } else th))
    ∧ ((s.core core).flip = .landing b at' → at' ≤ s.clk →
      exec (.bankFlipIssuable core) s = .next
        ((Claim.traced s (core / 8) 2 (core % 8) (((s.core core).bankCtx b).getD 0)
            (BitVec.ofNat 64 (core % 8 + 8 * b + 16))).updCore core fun c => { c with flip := .idle, inForce := some b, turnFrom := s.time.now / 65536 }))

/-- R356 to R358: STOP is kept until it can land, and ignored while the core is stopped; a stop that may land stops the core
from the next clock on, with a STOP record (R355), DUMPED = 0 where DBASE is zero or its area cannot be written, and else the
dump written there and DUMPED = 1: zero, device time, the clock, the number of entries, and entries of four words each.
RELEASE ends a stop, and is ignored while there is none. Choices of the model it rests on: log 56. -/
def Sys2Proof.Claim.StopsLandAndRelease : Prop :=
  ∀ (s : State) (core : Nat),
    (exec (.preciseStopRequest core) s = .next (if (s.core core).stop.stopped then s
      else s.updCore core fun c => { c with stop := { c.stop with requested := true } }))
    ∧ ((s.core core).stop.requested = true → (s.core core).stop.stopped = true ∨ (s.core core).holder = none →
      let s1 := Claim.traced (s.updCore core fun c => { c with stop :=
        { c.stop with requested := false, stopped := true, since := s.clk, dumped := false } })
        (core / 8) 3 (core % 8) 0 (BitVec.ofNat 64 (core % 8))
      ∃ es : List (List Word), (∀ e ∈ es, e.length = 4)
        ∧ exec (.preciseStop core) s = .next
          (match if (s.core core).stop.dbase = 0 then none else s1.agentWrite 0 (s.core core).stop.dbase false
              (([0, BitVec.ofNat 64 (s.time.now / 65536), BitVec.ofNat 64 (Claim.lcyc s (core / 8)),
                 BitVec.ofNat 64 es.length] ++ es.flatten).flatMap fun w => leBytes 8 w.toNat) with
          | none => s1
          | some t => t.updCore core fun c => { c with stop := { c.stop with dumped := true } })
        ∧ (∀ gs : List Group, gs = ([0, 1].flatMap fun b =>
            (((s.core core).rotation ++ vget (s.core core).parked b []).filterMap fun g => tget s.groups g).filter
              fun g => g.bank == b) → es.take gs.length = gs.map s1.groupEntry))
    ∧ exec (.preciseStopRelease core) s = .next (if (s.core core).stop.stopped then
        Claim.traced (s.updCore core fun c =>
          { c with stop := { c.stop with requested := false, stopped := false, dumped := false } })
          (core / 8) 3 (core % 8) 0 (BitVec.ofNat 64 (core % 8 + 8)) else s)

/-- R276, R356 to R358: bank flips, and precise stops. -/
def Obligations.FlipsAndStopsLand : Prop := Claim.BankFlipsLandAndComplete ∧ Claim.StopsLandAndRelease

/-! ### Counters, time and observation -/

/-- The monotonic maximum of two 64-bit values (R298). -/
def Sys2Proof.Claim.rise (old new : Word) : Word := BitVec.ofNat 64 (max old.toNat new.toNat)

/-- R298, R270, R320, R344, R354, R360: a write of CHTAIL, KICK, BSRD, TRD or SRD leaves the greater of the old and the new
value; a TQHEAD write that leaves at most 256 records unread is taken, and another is ignored and sets REJ. Three
things are the model's own choice: that a TQHEAD write, an ignored one too, counts the context's vector as serviced
(log 57) and lets a record whose slot could not be written be tried again (log 19), and that CHTAIL and KICK note that
they have been written (log 63). -/
def Sys2Proof.Claim.CounterWritesRise : Prop :=
  ∀ (s : State) (ch q n cl ctx : Nat) (w : Word), ch < 68 → q < 256 → n < 64 →
    exec (.chtailWrite ctx ch w) s = .next (s.updChain ctx ch fun c => { c with tail := Claim.rise c.tail w, written := true })
    ∧ exec (.kickWrite q w) s = .next (s.updHostq q fun h => { h with kick := Claim.rise h.kick w, written := true })
    ∧ exec (.bsrdWrite n w) s = .next (s.updStream n fun t => { t with bsrd := Claim.rise t.bsrd w })
    ∧ exec (.trdWrite cl w) s = .next (s.updCluster cl fun c => { c with trace := { c.trace with trd := Claim.rise c.trace.trd w } })
    ∧ exec (.srdWrite w) s = .next { s with series := { s.series with srd := Claim.rise s.series.srd w } }
    ∧ exec (.tqheadWrite ctx w) s = .next
        (State.updCtx { s with package := { s.package with msix := s.package.msix.erase ctx } } ctx fun c =>
          if ((c.tqtail.toNat : Int) - w.toNat) % 2 ^ 32 ≤ 256 then { c with tqhead := w.setWidth 32, tqStuck := false }
          else { c with rej := true, tqStuck := false })

/-- The offset that an exchange gives, in whole ns (R324). -/
def Sys2Proof.Claim.offset (t1 t2 t3 t4 : Nat) : Int := (((t2 : Int) - t1) - ((t4 : Int) - t3)).fdiv 2

/-- R323 to R325: the messages of an exchange, of the DOMAIN on the PORT while the discipline is on, give the times t1 to t3;
a Delay_Req of 44 octets with the DOMAIN leaves on the fabric port, or by the mailbox of the host link; Announce is ignored;
HOLDOVER follows 1 s without an exchange; a read of TIMENS latches the fraction. Choices of the model it rests on: log
47, 71, and log 60 for the list of messages of the control channel. -/
def Sys2Proof.Claim.TimeMessagesTakeTheirTimes : Prop :=
  ∀ (s : State) (t1 : Nat), (s.time.en = true ∧ (s.time.port.toNat < 18 ∨ s.time.port = 31)) →
    exec (.sync s.time.domain.toNat s.time.port.toNat) s
      = .next { s with time := { s.time with t1 := none, t2 := some (s.time.now / 65536), t3 := none } }
    ∧ (s.time.t2 ≠ none → exec (.followUp s.time.domain.toNat s.time.port.toNat t1) s
      = .next { s with time := { s.time with t1 := some t1 } })
    ∧ (∃ bs : List Byte, bs.length = 44 ∧ bs.getD 4 0 = s.time.domain ∧
        let now := s.time.now / 65536
        let sent := { s with freeCtr := s.freeCtr + 1, time := { s.time with t3 := some now } }
        exec .delayReq s = .next (if s.time.port = 31 then
            { sent with time := { sent.time with mailbox := s.time.mailbox ++ [(now, bs)] } }
          else
            { sent with fabric := { s.fabric with
                control := s.fabric.control ++ [.delayReq s.time.port.toNat now bs] } }))
    ∧ exec (.announce s.time.domain.toNat s.time.port.toNat) s = .next s
    ∧ (s.time.state = 1 ∨ s.time.state = 2 → s.time.last + 1000000000 ≤ s.time.now / 65536 →
      exec .holdover s = .next { s with time := { s.time with state := 3, good := 0 } })
    ∧ exec .timensRead s = .next { s with time := { s.time with fracLatch := BitVec.ofNat 16 (s.time.now % 65536) } }

/-- R324, R325: a Delay_Resp completes an exchange: TOFFSET holds its offset; the sixteenth offset in a row within 100
ns locks the discipline. An offset above 1 ms sets ALARM while a stream is admitted, with the rate at the limit toward
zero offset, and steps time, once, while none is and the discipline is not locked; any other offset leaves time as it
stands. The rate stays within 200 ppm. Choices of the model it rests on: log 47. -/
def Sys2Proof.Claim.ExchangeDisciplinesTime : Prop :=
  ∀ (s : State) (t1 t2 t3 t4 : Nat), (s.time.en = true ∧ (s.time.port.toNat < 18 ∨ s.time.port = 31)) →
    s.time.t1 = some t1 → s.time.t2 = some t2 → s.time.t3 = some t3 → (sgn 32 s.time.rateadj.toNat).natAbs ≤ 219902326 →
    ∃ t, exec (.delayResp s.time.domain.toNat s.time.port.toNat t4) s = .next t
      ∧ t = { s with time := t.time, series := t.series, package := t.package, freeCtr := t.freeCtr }
      ∧ t.time.toffset = BitVec.ofInt 64 (Claim.offset t1 t2 t3 t4)
      ∧ t.time.good = (if (Claim.offset t1 t2 t3 t4).natAbs ≤ 100 then s.time.good + 1 else 0)
      ∧ (t.time.state = 2 ↔ s.time.state = 2 ∨ 16 ≤ t.time.good) ∧ (t.time.state = 1 ∨ t.time.state = 2)
      ∧ (sgn 32 t.time.rateadj.toNat).natAbs ≤ 219902326
      ∧ ((Claim.offset t1 t2 t3 t4).natAbs ≤ 1000000 →
          t.time.now = s.time.now ∧ t.time.stepped = s.time.stepped ∧ t.time.alarm = s.time.alarm)
      ∧ (1000000 < (Claim.offset t1 t2 t3 t4).natAbs → s.streaming = true →
          t.time.now = s.time.now ∧ t.time.alarm = true ∧ t.time.stepped = s.time.stepped
          ∧ sgn 32 t.time.rateadj.toNat = (if 0 < Claim.offset t1 t2 t3 t4 then -219902326 else 219902326))
      ∧ (1000000 < (Claim.offset t1 t2 t3 t4).natAbs → s.streaming = false → t.time.state = 1 →
          t.time.stepped = true ∧ t.time.now = ((s.time.now : Int) - Claim.offset t1 t2 t3 t4 * 65536).toNat)

/-- R322 to R325: the messages of an exchange of times, and what they do to device time. -/
def Obligations.TimeIsDisciplined : Prop := Claim.TimeMessagesTakeTheirTimes ∧ Claim.ExchangeDisciplinesTime

/-- The clocks of a cluster up to the end of this clock, in 1700ths of one (R354). -/
def Sys2Proof.Claim.parts (s : State) (cl : Nat) : Nat :=
  (s.cluster cl).lcycAcc + (s.clk - (s.cluster cl).lcycAt) * (s.cluster cl).fmhz + (s.cluster cl).fmhz

/-- The whole clocks of a cluster since its count of 1700ths was `n`. -/
def Sys2Proof.Claim.clocksSince (s : State) (cl n : Nat) : Nat := Claim.parts s cl / 1700 - n / 1700

/-- Word `i` of a counter sample (R360): its time, its number and K, the counts of the cores, and the busy clocks of units,
which are free values. -/
def Sys2Proof.Claim.sampleWord (s : State) (i : Nat) : BitVec 32 :=
  let c := s.core ((i - 16) / 4)
  if i < 2 then BitVec.ofNat 32 (s.time.now / 65536 / 2 ^ s.series.k * 2 ^ s.series.k / 2 ^ (32 * i))
  else if i < 4 then BitVec.ofNat 32 (s.series.swr.toNat / 2 ^ (32 * (i - 2)))
  else if i = 4 then BitVec.ofNat 32 s.series.k
  else if i < 16 ∨ 987 ≤ i then 0
  else if 784 ≤ i then Config.busyCount s.freeCtr i
  else BitVec.ofNat 32 (min (2 ^ 32 - 1) (if i % 4 < 3 then vget c.counts (i % 4) 0
    else Claim.clocksSince s ((i - 16) / 4 / 8) (s.series.lastParts.getD ((i - 16) / 4 / 8) 0) - (vget c.counts 0 0 + vget c.counts 1 0 + vget c.counts 2 0)))

/-- The state after a sample `r`: the counts begin again (R360). -/
def Sys2Proof.Claim.sampled (s : State) (r : Series) : State :=
  { s with cores := tmap s.cores fun _ c => { c with counts := Vector.replicate 3 0 }, 
           series := { r with lastParts := (List.range 24).map (Claim.parts s) } }

/-- A SYNC record of a cluster's clock `n` (R355): its setting and count, and the device time at the start of that clock. -/
def Sys2Proof.Claim.syncRecord (s : State) (cl n : Nat) : Nat × Nat × Word × Word :=
  let c := s.cluster cl
  (0, 0, BitVec.ofNat 64 (c.fmhz % 4096 * 2 ^ 48 + n % 2 ^ 48),
    BitVec.ofNat 64 ((s.time.now
      - (c.lcycAcc + (s.clk - c.lcycAt) * c.fmhz - 1700 * n) * 65536000 / (1700 * c.fmhz)) / 65536))

/-- R355, R360, R361, R362: a SYNC record joins those of its clock at a new setting, and at a clock whose count is a multiple
of 2^16, or that such a clock has passed in, whose record it is; a counter sample that is due is written at its
place of the ring and SWR rises where the ring has room and can be written, and SLOST rises otherwise; START zeroes
the counts of a capture and records the time, and STOP ends it; a 32-bit read of the low half of an accumulator
latches its high half. Choices of the model it rests on: log 56. -/
def Sys2Proof.Claim.ObservationsAreTaken : Prop :=
  ∀ (s : State) (cl ctx acc : Nat), ctx < 64 → (acc < 26 ∨ 32 ≤ acc ∧ acc < 96) →
    (let c := s.cluster cl
      let parts := c.lcycAcc + (s.clk - c.lcycAt) * c.fmhz
      let turns := c.lcycAt < s.clk ∧ parts / 1700 / 65536 ≠ (parts - c.fmhz) / 1700 / 65536
      let first := parts / 1700 / 65536 * 65536
      let adds := fun rs => exec (.traceSyncRecord cl) s = .next (s.updCluster cl fun c =>
        { c with trace := { c.trace with needSync := false, buf := rs ++ c.trace.buf } })
      c.trace.en = true → (∀ r ∈ c.trace.buf, r.1 ≠ 0) →
        (c.trace.needSync = true → ¬ turns → adds [Claim.syncRecord s cl (parts / 1700)])
        ∧ (c.trace.needSync = false → turns → adds [Claim.syncRecord s cl first])
        ∧ (c.trace.needSync = true → turns → adds
            (if parts / 1700 = first then [Claim.syncRecord s cl first]
             else [Claim.syncRecord s cl first, Claim.syncRecord s cl (parts / 1700)]))
        ∧ (c.trace.needSync = false → ¬ turns → exec (.traceSyncRecord cl) s = .next s))
    ∧ (s.series.en = true → s.series.lastTick < s.time.now / 65536 / 2 ^ s.series.k →
      let r : Series := { s.series with lastTick := s.time.now / 65536 / 2 ^ s.series.k }
      let s1 : State := { s with series := r }
      let lost := Claim.sampled s1 { r with slost := r.slost + 1 }
      (2 ^ r.slog ≤ (r.swr - r.srd).toNat → exec .counterSample s = .next lost)
      ∧ ((r.swr - r.srd).toNat < 2 ^ r.slog → exec .counterSample s = .next
          (match s1.agentWrite 0 (r.sbase + BitVec.ofNat 64 (4096 * (r.swr.toNat % 2 ^ r.slog))) false
              ((List.range 1024).flatMap fun i => leBytes 4 (Claim.sampleWord s1 i).toNat) with
          | some t => Claim.sampled { t with freeCtr := t.freeCtr + 1 } { t.series with swr := t.series.swr + 1 }
          | none => lost)))
    ∧ exec (.captureStart ctx) s = .next (s.updCtx ctx fun c =>
        { c with capturing := true, capStart := BitVec.ofNat 64 (s.time.now / 65536), capIssued := 0, capPasses := 0,
                 capBytes := 0, capEnergy := 0, capSwaps := 0 })
    ∧ (∃ t, exec (.captureStop ctx) s = .next t ∧ (t.ctx ctx).capturing = false ∧ t.groups = s.groups ∧ t.teams = s.teams
        ∧ (∀ w, s.agentWrite ctx (s.ctx ctx).capaddr false ((s.captureWords ctx).flatMap fun w => leBytes 8 w.toNat) = some w →
            t.mem = w.mem))
    ∧ exec (.energyLowRead acc) s = .next { s with package := { s.package with
        energyLatch := tset s.package.energyLatch acc ((s.energy acc >>> 32).setWidth 32) } }

/-- R270, R298, R320, R344, R354, R355, R360 to R362: counters that rise, and what is observed. -/
def Obligations.CountersRiseAndSamplesAreTaken : Prop := Claim.CounterWritesRise ∧ Claim.ObservationsAreTaken

/-! ### Power, the fabric and the package -/

/-- R370: every 100 µs of device time the clusters take their grants, where these stay within what the device's limit leaves
beside the draw of the LP6 and the SerDes, a free value: a cluster
with a grant sets the clock that the grant covers and leaves the floor; one without drops to 1.2 GHz with reverse bias and
FLOOR. The clock a grant covers is a free value. Choices of the model it rests on: log 54. -/
def Sys2Proof.Claim.GrantsSetClocks : Prop :=
  ∀ (s : State) (grants : List (Option Nat)), s.package.lastGrant + 100000 ≤ s.time.now / 65536 →
    (grants.map fun g => g.getD 0).sum ≤ s.package.limit - Config.ioDraw s.clk →
    ∃ t, exec (.powerGrant grants) s = .next t
      ∧ t = { s with package := { s.package with lastGrant := s.time.now / 65536 }, clusters := t.clusters }
      ∧ (∀ cl, cl < 24 → (t.cluster cl).floor = (grants.getD cl none).isNone
        ∧ (grants.getD cl none = none → (t.cluster cl).fmhz = 1200 ∧ (t.cluster cl).bias = 2)
        ∧ ∀ w, grants.getD cl none = some w →
            (t.cluster cl).grant = w % 4096 ∧ (t.cluster cl).fmhz = 1200 + 100 * (Config.clockSteps (w % 4096) % 9))
      ∧ ∀ cl, t.cluster cl = { s.cluster cl with
          grant := (t.cluster cl).grant, bias := (t.cluster cl).bias, floor := (t.cluster cl).floor,
          fmhz := (t.cluster cl).fmhz, lcycAcc := (t.cluster cl).lcycAcc, lcycAt := (t.cluster cl).lcycAt, trace := { (s.cluster cl).trace with needSync := (t.cluster cl).trace.needSync } }

/-- The share of RACKLIMIT that this device's demand gives it, no more than MODLIMIT (R371); `free` stands for it while no
device demands anything. -/
def Sys2Proof.Claim.limit (k : Package) (ns free : Nat) : Nat :=
  if k.racklimit = 0 then k.modlimit.toNat
  else min k.modlimit.toNat
    (let sum := k.demand.toNat + (k.peers.map fun p => (if p.2.2.2 + 1000000 < ns then p.2.1 else p.2.2.1).toNat).sum
     if sum = 0 then free else k.racklimit.toNat * 100 * k.demand.toNat / sum)

/-- The BUDGET message to a member as it leaves (R382): by PRI, or by ALT while PRI is down; with both down it is lost. -/
def Sys2Proof.Claim.budget (s : State) (src dst : Nat) (time : Word) (draw demand : BitVec 16) : List ControlMsg :=
  let r := (tgetD s.fabric.routes dst 0).toNat
  let pri := r / 2 % 32
  let alt := r / 64 % 32
  if pri ∈ s.fabric.up then [.budget pri src dst time draw demand]
  else if alt ∈ s.fabric.up then [.budget alt src dst time draw demand] else []

/-- R371, R373, R382: every 100 µs a device sends its draw and demand, with the device time, to every other member of its pod
while RACKLIMIT is not zero, and forms its limit; a message to it counts in that limit, and one to another member goes on;
the energy of filler is charged to the context that left, in its accumulator and its capture, and to the die and the module.
Choices of the model it rests on: log 54, 55, and log 60 for the list of messages of the control channel. -/
def Sys2Proof.Claim.BudgetsAndFiller : Prop :=
  ∀ (s : State) (src dst ctx nj : Nat) (time : Word) (draw demand : BitVec 16), ctx < 64 →
    (s.package.racklimit ≠ 0 → s.package.lastBudget + 100000 ≤ s.time.now / 65536 →
      ∃ free, exec (.budgetSend draw demand) s = .next
        (let k := { s.package with draw := draw, demand := demand, lastBudget := s.time.now / 65536 }
         let c := s.fabric.control
           ++ ((s.fabric.routes.filter fun p => p.2.getLsbD 11 && p.1 != s.fabric.pod.toNat).map Prod.fst).flatMap fun d =>
             Claim.budget s s.fabric.pod.toNat d (BitVec.ofNat 64 (s.time.now / 65536)) draw demand
         { s with package := { k with limit := Claim.limit k (s.time.now / 65536) free }, fabric := { s.fabric with control := c },
                  freeCtr := s.freeCtr + 1 }))
    ∧ (∃ free, exec (.budgetMessage src s.fabric.pod.toNat time ⟨draw, demand⟩) s = .next
      (let k := { s.package with peers := tset s.package.peers src (draw, demand, s.time.now / 65536) }
       { s with package := { k with limit := Claim.limit k (s.time.now / 65536) free }, freeCtr := s.freeCtr + 1 }))
    ∧ (dst ≠ s.fabric.pod.toNat → (tgetD s.fabric.routes dst 0).getLsbD 11 = true →
      exec (.budgetMessage src dst time ⟨draw, demand⟩) s = .next
        { s with fabric := { s.fabric with control := s.fabric.control ++ Claim.budget s src dst time draw demand } })
    ∧ exec (.filler ctx nj) s = .next
      (let k := { s.package with energyDie := s.package.energyDie + BitVec.ofNat 64 nj,
                                 energyModule := s.package.energyModule + BitVec.ofNat 64 nj }
       let t := s.updCtx ctx fun c => { c with energy := c.energy + BitVec.ofNat 64 nj,
                                               capEnergy := if s.captures ctx then c.capEnergy + nj else c.capEnergy }
       { t with package := k })

/-- The highest priority among a context's open cards (R374). -/
def Sys2Proof.Claim.topPrio (s : State) (ctx : Nat) : Nat :=
  (s.openOf ctx).foldl (fun m k => max m (((tget s.cards k).map Card.prio).getD 0)) 0

/-- R374: power kill takes a whole context: one with an admitted stream only after every other; the one whose open cards'
highest priority is lowest; of equals, the highest number. Its open cards complete POWER_KILL and its chains are disabled,
KILLS rises by one and vector 64 fires; until the measured current, a free value, is below ICRIT the next follows.
Choices of the model it rests on: log 54. -/
def Sys2Proof.Claim.PowerKillTakesContexts : Prop :=
  ∀ (s : State) (c : Nat), s.powerVictim = some c →
    c < 64 ∧ s.openOf c ≠ []
    ∧ (∀ d, d < 64 → s.openOf d ≠ [] → s.streams? d = false → s.streams? c = false)
    ∧ (∀ d, d < 64 → s.openOf d ≠ [] → (s.streams? d = true → s.streams? c = true) →
        Claim.topPrio s c < Claim.topPrio s d ∨ (Claim.topPrio s c = Claim.topPrio s d ∧ d ≤ c))
    ∧ let s1 := (s.openOf c).foldl (fun s k => s.killCard k fun o => { o with powerKill := true }) s
      let s2 := (List.range 68).foldl (fun s ch => if (s.chain c ch).en then s.disableChain c ch else s) s1
      let s3 := Claim.fired { s2 with package := { s2.package with kills := s2.package.kills + 1 }, freeCtr := s2.freeCtr + 1 }
      exec .powerKill s = .next (if s3.package.icrit.toNat ≤ Config.dieCurrent s3.freeCtr then s3.powerKills 63 else s3)

/-- R370, R371, R373, R374, R382: grants, filler, and power kill. -/
def Obligations.PowerIsShared : Prop := Claim.GrantsSetClocks ∧ Claim.BudgetsAndFiller ∧ Claim.PowerKillTakesContexts

/-- An answer is recorded under its source and number, and goes back (R383). -/
def Sys2Proof.Claim.answered (s : State) (r : RemoteReq) (a : RemoteAns) : State :=
  { s with fabric := { s.fabric with served := s.fabric.served ++ [(r.src, r.num, a)],
                                     answers := s.fabric.answers ++ [(r.src, r.num, a)] } }

/-- R380, R383: a request that repeats one is answered from its record, and nothing is performed; one of a group that is not
IVALID, or whose pages the tables of its group's context refuse, gets NAK_PROT, one with an unmapped page NAK_UNMAPPED. Any
other is performed at its places, where reads meet errors: a load answers with their bytes, a store leaves its data there, an
atomic the value of R129 and answers with the old one, an engine's addition the sum rounded once. Choices of the model it
rests on: log 60. -/
def Sys2Proof.Claim.IngressAnswersRequests : Prop :=
  ∀ (s : State) (r : RemoteReq) (a : RemoteAns),
    ((s.fabric.served.find? fun x => x.1 == r.src && x.2.1 == r.num) = some (r.src, r.num, a) →
      exec (.ingressRequest r) s = .next { s with fabric := { s.fabric with answers := s.fabric.answers ++ [(r.src, r.num, a)] } })
    ∧ ((s.fabric.served.find? fun x => x.1 == r.src && x.2.1 == r.num) = none →
      let e := tgetD s.fabric.ingress r.group.toNat 0
      (e.getLsbD 7 = false → exec (.ingressRequest r) s = .next (Claim.answered s r .nakProt))
      ∧ (e.getLsbD 7 = true →
        match s.ingressPlaces (e.toNat % 64) r (pageParts r.addr.toNat (r.size / 4096 + 2) 0 r.size) with
        | (s1, .error b) => exec (.ingressRequest r) s = .next (Claim.answered s1 r b) ∧ s1 = { s with fabric := s1.fabric }
        | (s1, .ok ps) =>
          let s2 := ps.foldl (fun s p => s.noteRead p.1 p.2) s1
          let p := (ps.headD (0, 0)).1
          s1 = { s with fabric := s1.fabric } ∧ s2.mem = s.mem
          ∧ (r.kind = .load ∨ r.kind = .engRead → exec (.ingressRequest r) s = .next
              (Claim.answered s2 r (.data (ps.flatMap fun p => s2.readLoc p.1 p.2))))
          ∧ (r.kind = .store ∨ r.kind = .engWrite → exec (.ingressRequest r) s = .next
              (Claim.answered (s1.storeAll ps r.data) r (.data [])))
          ∧ (r.kind = .engAdd → exec (.ingressRequest r) s = .next
              (Claim.answered (s2.replaceMem p (leBytes 4 (f32.encode 0 (Machine.Num.add false
                (f32.decode (leNat (s2.readLoc p 4))) (f64.decode (leNat r.data)))))) r (.data [])))
          ∧ ∀ opc typ, r.kind = .atomic opc typ ∨ r.kind = .red opc typ →
            let n := if typ.toNat < 2 then 4 else 8
            let old := leNat (s2.readLoc p n)
            let x := leNat (if opc = 0x5C then r.cmp else r.data) % 2 ^ (8 * n)
            let y := leNat (if opc = 0x5C then r.data else r.cmp) % 2 ^ (8 * n)
            exec (.ingressRequest r) s = .next (Claim.answered
              (match atomNew opc typ (8 * n) old x y with | some v => s2.replaceMem p (leBytes n v) | none => s2) r
              (.data (if r.kind = .atomic opc typ then leBytes n old else [])))))

/-- R364, R381: an answer with data reaches the access, or the engine, that asked: a chain, the ray queue of a team, the
rasteriser of a cluster; NAK_PROT, or no answer within FTO, freezes a chain with PROTECTION or FABRIC_TIMEOUT and the remote
address. The request leaves the list of those sent. Choices of the model it rests on: log 37, 60. -/
def Sys2Proof.Claim.AnswersReachTheirMasters : Prop :=
  ∀ (s : State) (n : Nat) (r : RemoteOut) (d : List Byte),
    (s.fabric.out.find? fun r => r.num.toNat == n && !r.waiting) = some r →
    let s1 : State := { s with fabric := { s.fabric with out := s.fabric.out.erase r } }
    let g : RemoteData := { addr := r.req.addr, bytes := d }
    (∀ id, r.master = .access id → exec (.remoteResponse n (.data d)) s = .next
      { s1 with ops := tupd s.ops id fun o => { o with got := o.got ++ [g] } })
    ∧ (∀ tid t, r.master = .ray tid → tget s.teams tid = some t → t.rays.waiting = some r.num.toNat →
      exec (.remoteResponse n (.data d)) s = .next (s1.updTeam tid fun t =>
        { t with rays := { t.rays with waiting := none, got := t.rays.got ++ [g] } }))
    ∧ (∀ cl x, r.master = .raster cl → (s.cluster cl).raster = some x → x.waiting = some r.num.toNat →
      exec (.remoteResponse n (.data d)) s = .next (s1.updCluster cl fun c =>
        { c with raster := some { x with waiting := none, got := x.got ++ [g] } }))
    ∧ (∀ ctx ch, r.master = .chain ctx ch → ch < 64 →
      (exec (.remoteResponse n (.data d)) s = .next (s1.updChain ctx ch fun c =>
          { c with run := c.run.map fun x : Running => { x with waiting := none, got := x.got ++ [g] } }))
      ∧ (∃ t, exec (.remoteResponse n .nakProt) s = .next t ∧ (t.chain ctx ch).frozen = true ∧ t.mem = s.mem
        ∧ (t.chain ctx ch).done = (s.chain ctx ch).done ∧ t.fabric.out = s.fabric.out.erase r
        ∧ ∃ x ∈ (t.ctx ctx).waiting, x.code = 0x0D ∧ x.addr = r.req.addr ∧ x.fatal = true ∧ x.wid = BitVec.ofNat 64 ch)
      ∧ (r.sent + 1000 * s.fabric.fto.toNat ≤ s.time.now / 65536 →
        ∃ t, exec (.remoteTimeout n) s = .next t ∧ (t.chain ctx ch).frozen = true ∧ t.mem = s.mem
        ∧ (t.chain ctx ch).done = (s.chain ctx ch).done ∧ t.fabric.out = s.fabric.out.erase r
        ∧ ∃ x ∈ (t.ctx ctx).waiting, x.code = 0x1A ∧ x.addr = r.req.addr ∧ x.fatal = true ∧ x.wid = BitVec.ofNat 64 ch))

/-- R364: an access to host memory that gets no completion is given up: FABRIC_TIMEOUT at its address, its team failed, and
frozen while it still runs; a word of host memory that gives none is marked for the engine that reads it next. -/
def Sys2Proof.Claim.HostTimeoutFailsTheAccess : Prop :=
  ∀ (s : State) (id off : Nat),
    (∀ (o : MemOp) (p : Piece) (tm : Team), tget s.ops id = some o →
      (o.pieces.find? fun p => p.path == .hostWindow) = some p → tget s.teams o.team = some tm →
      ∃ t m, exec (.hostTimeout (.flying id)) s = .next t ∧ t.mem = s.mem ∧ tget t.ops id = none
        ∧ tget t.teams o.team = some m ∧ m.failed = true ∧ (tm.finished = false → m.frozen = true)
        ∧ ∃ x ∈ (t.ctx o.ctx).waiting, x.code = 0x1A ∧ x.addr = p.va ∧ x.fatal = true ∧ x.wid = o.wid)
    ∧ (off < 2 ^ 23 → exec (.hostTimeout (.next off)) s = .next { s with flaws := tset s.flaws ((2 ^ 42 + off) / 8) 4 })

/-- R364, R380, R381, R383: requests of other devices, and answers and failures of this device's own. -/
def Obligations.RemoteRequestsAreAnswered : Prop := Claim.IngressAnswersRequests ∧ Claim.AnswersReachTheirMasters ∧ Claim.HostTimeoutFailsTheAccess

/-- R383: a port that loses lock has UP = 0 while it retrains, and what was sent through it goes out once more on ALT; once
it is retrained UP reads 1 and PEER names the device at its far end, and requests that found no port are sent. Choices
of the model it rests on: log 60. -/
def Sys2Proof.Claim.PortsLoseAndRegainLock : Prop :=
  ∀ (s : State) (port : Nat) (peer : BitVec 8), port < 18 → s.fabric.up.Nodup →
    (∃ t, exec (.portLossOfLock port) s = .next t ∧ t = { s with fabric := t.fabric } ∧ t.fabric.up.contains port = false
      ∧ (∀ q, q ≠ port → t.fabric.up.contains q = s.fabric.up.contains q)
      ∧ t.fabric.out = s.fabric.out.map fun o =>
          let r := (tgetD s.fabric.routes o.dst 0).toNat
          if o.waiting = false ∧ (if o.alt then r / 64 % 32 else r / 2 % 32) = port then { o with alt := true } else o)
    ∧ (∃ t, exec (.portRetrained ⟨port, peer⟩) s = .next t ∧ t = { s with fabric := t.fabric } ∧ t.fabric.up.contains port = true
      ∧ t.fabric.peer = tset s.fabric.peer port peer
      ∧ (∀ q, q ≠ port → t.fabric.up.contains q = s.fabric.up.contains q)
      ∧ t.fabric.out = s.fabric.out.map fun o =>
          if o.waiting = true ∧ t.portFor o.dst ≠ none then
            { o with waiting := false, sent := s.time.now / 65536, alt := (t.portFor o.dst).any Prod.snd } else o)

/-- R375: at reset the boot ROM starts image A where both its checks pass, else image B where both of its pass, and otherwise
the device halts with the status register telling the failed checks. The checks are free values. A firmware image that
starts zeroes the host window and sets every GRPOWN to all ones. Choices of the model it rests on: log 52. -/
def Sys2Proof.Claim.BootStartsAnImage : Prop :=
  ∀ (s : State), s.package.booted = false → s.package.halted = false →
    let good := fun i => Config.imageCheck i 0 && Config.imageCheck i 1
    let bad := fun i c => if Config.imageCheck i c then 0 else 2 ^ (2 * i + c)
    let up := fun i report => { s with
      mem := s.mem.filter fun c => c.1 < 2 ^ 42 || 2 ^ 42 + 2 ^ 23 ≤ c.1
      package := { s.package with booted := true, firmware := i, bootStatus := BitVec.ofNat 4 report, grpown := [] } }
    exec .boot s = .next (if good 0 then up 0 0 else if good 1 then up 1 (bad 0 0 + bad 0 1)
      else { s with package := { s.package with halted := true, bootStatus := BitVec.ofNat 4 (bad 0 0 + bad 0 1 + bad 1 0 + bad 1 1) } })

/-- R377: a servicing command completes with SVCSTAT 1, or 2 where it is refused, and vector 64 fires: a firmware
switch to an image whose checks fail (free values) is refused, and one that is done waits until the control cores
stand between packets; an LP6 channel is retrained; a cluster is not replaced where no spare is left. A stream's
reconfiguration stops the stream and waits while it still runs. Choices of the model it rests on: log 51. -/
def Sys2Proof.Claim.ServicingCompletes : Prop :=
  ∀ (s : State) (arg : Word), s.package.svcBusy = true →
    let done := fun (s : State) (n : Nat) => Claim.fired { s with package := { s.package with
      svcstat := BitVec.ofNat 64 n, svcBusy := false, reconfigure := none } }
    (s.package.svccmd = 1 → s.ctl.any (fun p => p.2.cur.isSome) = true → exec (.firmwareSwitch arg) s = .next s)
    ∧ (s.package.svccmd = 1 → s.ctl.any (fun p => p.2.cur.isSome) = false → exec (.firmwareSwitch arg) s = .next
      (if 1 < arg.toNat ∨ (Config.imageCheck arg.toNat 0 && Config.imageCheck arg.toNat 1) = false then done s 2
       else done ({ s with package := { s.package with firmware := arg.toNat } }).refetch 1))
    ∧ (s.package.svccmd = 2 → s.package.spares = [] → exec (.clusterReplace arg) s = .next (done s 2))
    ∧ (s.package.svccmd = 2 → ∀ sp rest, s.package.spares = sp :: rest → arg.toNat % 32 < 24 → s.spareReady (arg.toNat % 32) = true →
      let s1 := { s with freeCtr := s.freeCtr + 1 }
      exec (.clusterReplace arg) s = .next
        (if Config.spareFits s.freeCtr then done (s1.toSpare (arg.toNat % 32) sp) 1 else done s1 2)
      ∧ ((s1.toSpare (arg.toNat % 32) sp).cluster (arg.toNat % 32)).physical = sp
      ∧ (s1.toSpare (arg.toNat % 32) sp).package.spares = rest)
    ∧ (s.package.svccmd = 3 → exec (.lp6Retrain arg) s = .next (done s 1))
    ∧ (s.package.svccmd = 4 →
      let n := arg.toNat % 64
      let u := s.stopStream n
      exec (.streamReconfigure arg) s = .next
        (if (u.stream n).state = 0 then done (u.admitCmd n) (if ((u.admitCmd n).stream n).state = 1 then 1 else 2)
         else { u with package := { u.package with reconfigure := some n } }))

/-- R375, R377, R383: ports and links, boot, and servicing. -/
def Obligations.DeviceIsServiced : Prop := Claim.PortsLoseAndRegainLock ∧ Claim.BootStartsAnImage ∧ Claim.ServicingCompletes

/-- The status word of a display output becomes `w` (R368). -/
def Sys2Proof.Claim.setDp (s : State) (o : Nat) (w : BitVec 8) : State :=
  { s with package := { s.package with dpstat := tset s.package.dpstat o w } }

/-- R363, R364, R368, R376: a host write reaches LP6 or the host window, and a host read changes nothing; a UCIe module that
fails is down, with vector 64, until it is retrained; an output's status word follows its sink and its link; an attestation
report is written to the host window, its first 32 bytes the nonce and its bytes 168 to 175 device time, and vector 64
fires. Choices of the model it rests on: log 46, 53. -/
def Obligations.PackageEvents : Prop :=
  ∀ (s : State) (m o addr off : Nat) (bs : List Byte) (nonce : BitVec 256), m < 8 → o < 2 →
    (exec (.hostMemoryAccess false addr bs) s = .next s)
    ∧ ((addr + bs.length ≤ 2 ^ 40 ∨ (2 ^ 42 ≤ addr ∧ addr + bs.length ≤ 2 ^ 42 + 2 ^ 23)) →
      ∃ t, exec (.hostMemoryAccess true addr bs) s = .next t ∧ Stored s t
        ∧ ∀ a, memGet t.mem a = if addr ≤ a ∧ a < addr + bs.length then bs.getD (a - addr) 0 else memGet s.mem a)
    ∧ exec (.linkModuleFail m) s = .next
        (Claim.fired { s with package := { s.package with modulesDown := insRise s.package.modulesDown m } })
    ∧ exec (.ucieModuleRetrained m) s = .next { s with package := { s.package with modulesDown := s.package.modulesDown.erase m } }
    ∧ exec (.dpLinkLoss o) s = .next (Claim.setDp s o
        ((tgetD s.package.dpstat o 0 &&& 0xEF#8) ||| if s.outputUsed o then 8#8 else 0#8))
    ∧ exec (.hotPlug o false) s = .next (Claim.setDp s o
        ((tgetD s.package.dpstat o 0 &&& 8#8) ||| if s.outputUsed o then 8#8 else 0#8))
    ∧ (∃ sink : BitVec 3, exec (.hotPlug o true) s = .next (Claim.setDp { s with freeCtr := s.freeCtr + 1 } o
        ((tgetD s.package.dpstat o 0 &&& 0x18#8) ||| 1#8 ||| sink.setWidth 8 <<< 5)))
    ∧ (s.outputUsed o = true → (tgetD s.package.dpstat o 0).getLsbD 0 = true →
      exec (.dpLinkTrained o) s = .next (Claim.setDp s o (tgetD s.package.dpstat o 0 ||| 0x10#8)))
    ∧ (off + 3485 ≤ 2 ^ 23 → ∃ t body, exec (.attestationRequest nonce off) s = .next t ∧ body.length = 3453
      ∧ Stored s { t with package := s.package, freeCtr := s.freeCtr } ∧ t.package = (Claim.fired s).package
      ∧ ((body.drop 136).take 8 = leBytes 8 (s.time.now / 65536))
      ∧ t.mem = (s.store (2 ^ 42 + off) (leBytes 32 nonce.toNat ++ body)).mem)

/-! ### Teams, cards and tasks -/

/-- R22, R154, R174, R175, R181, R231: a team that is launched has every hardware queue before `qinit`, every
rendezvous point, convergence register and coefficient zero, no tile, an issue count of zero, the values of R22 in k28
to k31, and the WIDs of its card from its base on. The scan of the ready queues places teams while one fits (R191).
Choices of the model it rests on: log 25. -/
def Obligations.ReadyTeamsAreLaunched : Prop :=
  ∀ (s : State) (c core bank seg : Nat) (k : Card) (slots : List (List (Nat × Nat))), tget s.cards c = some k →
    s.teamSlots core bank k.hdr = some slots →
    (exec .readyQueueScan s = .next (if s.placeable then
      s.readyQueues.foldl (fun s q => if (s.ctx q.2).away then s
        else (s.queueCards q.1 q.2).foldl (fun s c => s.placeTeams c 786432) s) s
      else s))
    ∧ ∃ m, tget (s.launchTeam c core bank seg).teams s.fresh = some m
      ∧ m.ctx = k.ctx ∧ m.card = c ∧ m.core = core ∧ m.bank = bank ∧ m.base = k.nextWid ∧ m.issued = 0 ∧ m.tiles = []
      ∧ m.allocOff = seg * 4096 ∧ m.allocSegs = cardSegs k.words
      ∧ (∀ i, i < 8 → (m.queue i).init = false ∧ (m.queue i).entries = [])
      ∧ (∀ i (h : i < 24), m.rv[i].exp = 0 ∧ m.rv[i].cur = 0 ∧ m.rv[i].nxt = 0 ∧ m.rv[i].ph = false)
      ∧ (∀ i (h : i < 16), m.cv[i].cnt = 0 ∧ m.cv[i].sig = 0 ∧ m.cv[i].armed = false ∧ m.cv[i].cmd = 0 ∧ m.cf[i] = 0)
      ∧ m.k[28] = (if cardSegs k.words = 0 then 0 else (s.ctx k.ctx).clubase + BitVec.ofNat 64 (seg * 4096))
      ∧ m.k[29] = ((k.words.getD 0 0).setWidth 32).setWidth 64 ∧ m.k[30] = k.nextWid
      ∧ m.k[31] = BitVec.ofNat 64 (s.time.now / 65536)

/-- R128, R174, R230: a team whose threads are over, with no side-log entry, no access or `post` in flight and empty queues,
retires: its segments become dead and its tiles are free; segments of others, other cards and memory stay as they were. -/
def Sys2Proof.Claim.FinishedTeamsRetire : Prop :=
  ∀ (s : State) (tid : Nat) (tm : Team), tget s.teams tid = some tm → tm.finished = true → tm.gone = false →
    (∀ p ∈ s.ops, p.2.team ≠ tid) → (∀ q ∈ s.posts, ∀ th, tget s.threads q.2.sid = some th → th.team ≠ tid) → tm.bruin.cmds = [] → tm.rays.rays = [] →
    (s.ctx tm.ctx).saved = none → (s.cluster (tm.core / 8)).live.Nodup →
    ∃ t m, exec (.teamRetire tid) s = .next t ∧ t.mem = s.mem ∧ tget t.teams tid = some m ∧ m.gone = true ∧ m.tiles = []
      ∧ (∀ i, i ≠ tid → tget t.teams i = tget s.teams i) ∧ t.threads = s.threads
      ∧ (∀ i, i ≠ tm.card → tget t.cards i = tget s.cards i)
      ∧ ∀ g, (t.cluster (tm.core / 8)).live.contains g =
          ((s.cluster (tm.core / 8)).live.contains g && !(tm.allocOff / 4096 ≤ g && g < tm.allocOff / 4096 + tm.allocSegs))

/-- CODE of a card by the first event of R196's order that befell it. -/
def Sys2Proof.Claim.code (k : Card) : Nat :=
  if k.out.badVersion then 7
  else if k.out.powerKill then 5
  else if k.out.deadlineMiss then 6
  else if k.out.killed then 2
  else if k.out.retryExhausted then 4
  else if k.out.faulted then 1
  else if 0 < k.tries then 3
  else 0

/-- R192, R196: a card with no team, no team to start, no continuation record and no incomplete write retires. With no
successors, no journal record and no timeline of its own, its retirement time and then its STATUS are written, COMPLETE with
its tries, LATE and CODE, and it leaves the device with its teams. Choices of the model it rests on: log 26. -/
def Sys2Proof.Claim.FinishedCardsRetire : Prop :=
  ∀ (s : State) (c : Nat) (k : Card), tget s.cards c = some k → k.next = k.total → k.again = [] → k.records = 0 →
    (∀ p ∈ s.teams, p.2.card = c → p.2.gone = true) → s.cardWrites c = false → k.phase = 0 →
    bits (wordAt k.words 6) 31 16 = 0 → k.journal = none → cardCtl k.words = 0xFFFF →
    ∃ t, exec (.cardRetirement c) s = .next t ∧ tget t.cards c = none ∧ (∀ p ∈ t.teams, p.2.card ≠ c)
      ∧ (∀ i, i ≠ c → tget t.cards i = tget s.cards i)
      ∧ t.mem = ((s.cardWrite k.ctx k.addr 12 (BitVec.ofNat 64 (s.time.now / 65536))).cardWrite k.ctx k.addr 11
          (BitVec.ofNat 64 (2 ^ 63 + k.tries % 16 * 4096 + (if k.late then 256 else 0) + Claim.code k))).mem

/-- R196: at its DEADLINE an open card is marked LATE where its DLSOFT is 1, and is otherwise killed, DEADLINE_MISS among its
outcomes; no team of it is left to start. -/
def Sys2Proof.Claim.DeadlinesKillOrMark : Prop :=
  ∀ (s : State) (c : Nat) (k : Card), tget s.cards c = some k → wordAt k.words 8 ≠ 0 →
    (wordAt k.words 8).toNat ≤ s.time.now / 65536 → s.cardOpen c = true → k.late = false → k.out.deadlineMiss = false →
    k.act = none →
    ((wordAt k.words 0).getLsbD 33 = true → exec (.cardDeadline c) s = .next (s.updCard c fun k => { k with late := true }))
    ∧ ((wordAt k.words 0).getLsbD 33 = false → ∃ t k', exec (.cardDeadline c) s = .next t ∧ tget t.cards c = some k'
        ∧ k'.out = { k.out with deadlineMiss := true } ∧ k'.next = k.total ∧ k'.again = [] ∧ k'.place = .placed)

/-- R185, R197: the scrubber corrects a single-bit error and counts it; an uncorrectable one in a team's allocation kills the
team, with a fatal record that names the place, and its allocation is freed unless an access or a `post` of it is
still in flight. A sound word changes nothing. Choices of the model it rests on: log 9, 65. -/
def Sys2Proof.Claim.ScrubberFindsErrors : Prop :=
  ∀ (s : State) (cl off tid : Nat) (tm : Team), cl < 24 → s.segLive cl (off / 4096) = true →
    let p := sliceLoc cl (off % 2 ^ 25)
    let counted := (State.updCluster { s with flaws := tdel s.flaws (p / 8) } cl fun c => { c with errors := c.errors + 1 })
    (tgetD s.flaws (p / 8) 0 = 0 → exec (.patrolScrub cl off 0) s = .next s ∧ exec (.patrolScrub cl off 1) s = .next counted)
    ∧ (tgetD s.flaws (p / 8) 0 = 1 → exec (.patrolScrub cl off 0) s = .next counted)
    ∧ (s.teamAt cl (off % 2 ^ 25) = some tid → tget s.teams tid = some tm → tm.killed = false →
      ∀ err, err = 2 ∨ tgetD s.flaws (p / 8) 0 = 2 →
      ∃ t m, exec (.patrolScrub cl off err) s = .next t ∧ tget t.teams tid = some m ∧ m.killed = true ∧ m.finished = true
        ∧ ((∀ q ∈ s.ops, q.2.team = tid → (q.2.logged || q.2.stuck) = true) →
            (∀ q ∈ s.posts, ∀ th, tget s.threads q.2.sid = some th → th.team ≠ tid) → m.gone = true ∧ m.tiles = [])
        ∧ ∃ x ∈ (t.ctx tm.ctx).waiting, x.code = 0x19 ∧ x.fatal = true ∧ x.wid = tm.base
          ∧ x.addr = BitVec.ofNat 64 (cl * 2 ^ 32 + off % 2 ^ 25))

/-- R174, R185, R192, R196, R197, R230: teams and cards that end, deadlines, and errors that are found. -/
def Obligations.WorkEnds : Prop := Claim.FinishedTeamsRetire ∧ Claim.FinishedCardsRetire ∧ Claim.DeadlinesKillOrMark ∧ Claim.ScrubberFindsErrors

/-- R200, R205: a post that arrives at another cluster goes to the bottom of its context's part of the core with room, or is
answered 1, full, or 2, no entry allotted; a waiting record whose condition holds becomes ready, and a ready one goes to the
bottom of the emptiest part. Choices of the model it rests on: log 27, 28. -/
def Sys2Proof.Claim.HandlesArriveAtDeques : Prop :=
  ∀ (s : State) (n ctx cl i : Nat) (m : PostMsg),
    (tget s.posts n = some m →
      (∀ b rest, (s.core m.core).roomy m.ctx = b :: rest → ∃ t, exec (.remotePost n) s = .next t ∧ tget t.posts n = none
        ∧ vget (t.core m.core).deque b [] = m.handle :: vget (s.core m.core).deque b [])
      ∧ ((s.core m.core).roomy m.ctx = [] →
        exec (.remotePost n) s = .next (State.fillTok { s with posts := tdel s.posts n } m.sid m.tok
          (if ((s.core m.core).banksOf m.ctx).all (fun b => (s.core m.core).partSize b == 0) then 2 else 1))))
    ∧ ((s.ctx ctx).away = false → (s.cards.any fun p => p.2.ctx == ctx && p.2.records != 0) = true →
      (s.deliverable cl ctx = some (i, false) → exec (.continuationDelivery ctx cl) s = .next (s.setRecord cl ctx i 2))
      ∧ ∀ core b, s.deliverable cl ctx = some (i, true) → s.emptiest cl ctx = some (core, b) →
        ∃ t, exec (.continuationDelivery ctx cl) s = .next t
          ∧ vget (t.core core).deque b [] = BitVec.ofNat 64 (0xFF * 2 ^ 56 + cl * 2 ^ 16 + i) :: vget (s.core core).deque b [])

/-- R206: a continuation that waits for a slot is resumed once its lane has one: a new thread of the resumption team with the
record's PC, WID and saved words, filed under that PC; the record is free, all else of its first word as before. Choices of
the model it rests on: log 27. -/
def Sys2Proof.Claim.ContinuationsResume : Prop :=
  ∀ (s : State) (cl : Nat) (r : Resume), s.resumable' cl = some r →
    let u := s.updCluster cl fun c => { c with resume := c.resume.erase r }
    let ws := u.readRecord r.cluster r.ctx r.index
    let a := u.recordAddr r.cluster r.ctx r.index
    let sid := fun core bank slot => sidOf core bank (bits (wordAt ws 0) 51 47) slot
    recordState ws = 3 →
    ∀ (c core bank slot off : Nat) (k : Card), u.recordCard r.ctx ws = some c → tget u.cards c = some k →
      u.resumeSlot r.ctx r.core (bits (wordAt ws 0) 51 47) (footprint k.hdr) = some (core, bank, slot, off) →
      (∀ x ∈ vget (u.core core).bins bank [], ∀ y ∈ x.filed, y.1 ≠ sid core bank slot) →
      ∃ t th tid, exec (.continuationResume cl) s = .next t
        ∧ tget t.threads (sid core bank slot) = some th
        ∧ th = { recordThread k.hdr tid off ws with cond := .filed, b0 := none, b1 := none }
        ∧ th.pc = wordAt ws 1 ∧ th.wid = wordAt ws 2
        ∧ (∃ m, tget t.teams tid = some m ∧ m.card = c ∧ m.core = core ∧ m.bank = bank ∧ m.resumption ≠ none)
        ∧ (∃ b ∈ vget (t.core core).bins bank [], b.key = wordAt ws 1 ∧ ∃ n, (sid core bank slot, n) ∈ b.filed)
        ∧ ∀ p x y z x' y' z', a.toNat % 256 = 0 → p + 256 ≤ 2 ^ 40 →
            u.agentPlace r.ctx a { read := false, write := true, exec := false, eng := false } = .ok p x y z →
            leNat (readMem t.mem p 8) = (wordAt ws 0).toNat - 3 * 2 ^ 32
            ∧ (t.agentPlace r.ctx a { read := true, write := false, exec := false, eng := false } = .ok p x' y' z' →
                (∀ q ∈ t.ops, q.2.woke = false) → recordState (t.readRecord r.cluster r.ctx r.index) = 0)

/-- R200, R205, R206: posted handles, and continuations. -/
def Obligations.HandlesAndContinuationsArrive : Prop := Claim.HandlesArriveAtDeques ∧ Claim.ContinuationsResume


/-! ### Traps, commands and registers -/

/-- The four words of a trap record as R111 lays them out. -/
def Sys2Proof.Claim.recordWords (r : TrapRec) : List Word :=
  [r.card ++ r.extra ++ BitVec.ofNat 6 r.ctx ++ BitVec.ofNat 5 r.cluster ++ BitVec.ofNat 3 r.core ++ BitVec.ofNat 1 r.bank
     ++ BitVec.ofBool r.exited ++ BitVec.ofBool r.replay ++ BitVec.ofBool r.fatal,
   r.wid, r.code ++ 0#3 ++ r.pc.extractLsb 55 2 ++ 0#2, r.addr]

/-- R111, R270, R271, R364: the first waiting record is written at TQBASE + 32 × (TQTAIL mod 256), TQTAIL advances and
the context's vector fires, while the occupancy is at most 254; at 255 only the first fatal record is. A slot that
cannot be written keeps the record waiting, with those behind it, and fires vector 64; a fatal record that finds 256 freezes
the context; any other waits. A vector that fires is an interrupt of the host, one of a context's only when the host
has serviced the one before (R364); the write is one that the host completes (R364). Choices of the model it rests on: log
19, 57, 65. -/
def Sys2Proof.Claim.TrapRecordsPost : Prop :=
  ∀ (s : State) (ctx : Nat), let c := s.ctx ctx
    let occupancy := ((c.tqtail.toNat : Int) - c.tqhead.toNat) % 2 ^ 32
    let bytes := fun r : TrapRec => (Claim.recordWords r).flatMap fun w : Word => (List.range 8).map fun i : Nat => (w >>> (8 * i)).setWidth 8
    let slot := c.tqbase + BitVec.ofNat 64 (32 * (c.tqtail.toNat % 256))
    let fire := fun (s : State) v => { s with package := { s.package with
      msix := insRise s.package.msix v,
      interrupts := if v < 64 ∧ v ∈ s.package.msix then s.package.interrupts
        else tset s.package.interrupts v (tgetD s.package.interrupts v 0 + 1) } }
    (∀ r, c.tqStuck = false → s.agentSilent ctx slot 32 = false →
      (occupancy ≤ 254 ∧ c.waiting.head? = some r ∨ occupancy = 255 ∧ c.waiting.find? (fun r => r.fatal) = some r) →
      exec (.trapRecordPost ctx) s = .next (match s.agentWrite ctx slot false (bytes r) with
        | some t => fire (t.updCtx ctx fun c => { c with tqtail := c.tqtail + 1, waiting := c.waiting.erase r }) ctx
        | none => fire (s.updCtx ctx fun c => { c with tqStuck := true }) 64))
    ∧ (256 ≤ occupancy → c.frozen = false → (c.waiting.any fun r => r.fatal) = true →
      exec (.trapRecordPost ctx) s = .next (s.updCtx ctx fun c => { c with frozen := true, tqovf := true }))
    ∧ (255 ≤ occupancy → (c.waiting.any fun r => r.fatal) = false → exec (.trapRecordPost ctx) s = .next s)
    ∧ (256 ≤ occupancy → c.frozen = true → exec (.trapRecordPost ctx) s = .next s)
    ∧ (c.tqStuck = true → occupancy ≤ 255 → exec (.trapRecordPost ctx) s = .next s)
    ∧ (c.waiting = [] → exec (.trapRecordPost ctx) s = .next s)

/-- R273: REPLAY files every thread of the context that is halted on a page, and whose record does not wait, under its saved
PC, where a bin drawn for room may take it at once, and lets its side-log entries retry; RESUME does so for the
threads halted by SOFT_TRAP or BREAKPOINT of the card and WID it names. Memory and every other thread are as they
were. UNFREEZE clears TQOVF and FROZEN. Choices of the model it rests on: log 16, 20. -/
def Sys2Proof.Claim.HaltedThreadsReissue : Prop :=
  ∀ (s : State) (ctx : Nat) (card : BitVec 32) (wid : Word), (s.ctx ctx).saved = none →
    let filed := fun (t : State) (p : Nat → Thread → Team → Prop) =>
      t.mem = s.mem ∧ ∀ k th tm, tget s.threads k = some th → tget s.teams th.team = some tm →
        (∀ core bank, ∀ x ∈ vget (s.core core).bins bank [], ∀ y ∈ x.filed, y.1 ≠ k) →
        (p k th tm → ∃ c, tget t.threads k = some { th with cond := c, b0 := none, b1 := none }
          ∧ (c = .filed ∨ ∃ g, c = .inGroup g))
        ∧ (¬p k th tm → tget t.threads k = some th)
    (∃ t, exec (.replay ctx) s = .next t
      ∧ filed t (fun k th tm => tm.ctx = ctx ∧ th.cond = .halted .page ∧ (s.ctx ctx).holds k = false)
      ∧ (∀ i o, tget s.ops i = some o → o.ctx = ctx → o.logged = true → ∃ q, tget t.ops i = some q ∧ q = { o with retry := true, stuck := false })
      ∧ (t.ctx ctx).tqStuck = false)
    ∧ (∃ t, exec (.resume ctx card wid) s = .next t
      ∧ filed t (fun k th tm => tm.ctx = ctx ∧ s.cardId tm = card ∧ th.wid = wid
          ∧ (th.cond = .halted .softTrap ∨ th.cond = .halted .breakpoint) ∧ (s.ctx ctx).holds k = false)
      ∧ ((∀ k, s.resumable ctx card wid k = false) → t = s.updCtx ctx fun c => { c with rej := true }))
    ∧ exec (.unfreeze ctx) s = .next (s.updCtx ctx fun c => { c with tqovf := false, frozen := false })

/-- R111, R270, R271, R273: trap records, and threads that go on after them. -/
def Obligations.TrapsAreServed : Prop := Claim.TrapRecordsPost ∧ Claim.HaltedThreadsReissue

/-- Every entry of a table is the one that its number reads. -/
def Sys2Proof.Claim.Listed {α : Type} (t : Tbl α) : Prop := ∀ p ∈ t, tget t p.1 = some p.2

/-- A team is killed: its threads are over and it has no command queued; its allocation and tiles are freed unless an
access of it, or a `post` of a thread of it, is still in flight. -/
def Sys2Proof.Claim.KilledTeam (s t : State) (i : Nat) : Prop :=
  ∃ m, tget t.teams i = some m ∧ m.killed = true ∧ m.finished = true ∧ m.bruin.cmds = [] ∧ m.rays.rays = []
    ∧ ((∀ q ∈ s.ops, q.2.team = i → (q.2.logged || q.2.stuck) = true) →
      (∀ q ∈ s.posts, ∀ th, tget s.threads q.2.sid = some th → th.team ≠ i) → m.gone = true ∧ m.tiles = [])

/-- No team that `keep` accepts is touched, but for values that were owed to its queues, and no card but `c`, except that one
may move up from an overflow list. -/
def Sys2Proof.Claim.KillsNoOther (s t : State) (c : Nat) (keep : Team → Prop) : Prop :=
  (∀ i m, tget s.teams i = some m → keep m → ∃ w, tget t.teams i = some { m with w := w })
  ∧ ∀ i x, i ≠ c → tget s.cards i = some x → ∃ b, tget t.cards i = some { x with overflow := b }

/-- R196, R273, R274: KILLCARD kills every resident team of the open card it names, starts none of its teams any more
and puts KILLED among its outcomes; KILLTEAM kills the resident teams that go by the WID base it names. Teams and
cards that are not named stay as they are. An operation that names no open card, or no team and no record of one, sets
REJ and does nothing else. Choices of the model it rests on: log 9, 20. -/
def Obligations.KillCommandsKill : Prop :=
  ∀ (s : State) (ctx : Nat) (card : BitVec 32) (wid : Word),
    (s.openCards ctx card = [] → exec (.killcard ctx card) s = .next (s.updCtx ctx fun c => { c with rej := true })
      ∧ exec (.killteam ctx card wid) s = .next (s.updCtx ctx fun c => { c with rej := true }))
    ∧ ((∀ c ∈ s.openCards ctx card, s.hasRecords c wid = false
          ∧ ∀ i m, (i, m) ∈ s.teams → m.card = c → m.gone = false → m.origin ≠ wid) →
        exec (.killteam ctx card wid) s = .next (s.updCtx ctx fun c => { c with rej := true }))
    ∧ ∀ c k, tget s.cards c = some k → s.openCards ctx card = [c] → Claim.Listed s.teams → Claim.Listed s.threads →
      (∃ t k', exec (.killcard ctx card) s = .next t ∧ tget t.cards c = some k' ∧ k'.next = k'.total ∧ k'.again = []
        ∧ k'.out = { k.out with killed := true }
        ∧ (∀ i m, tget s.teams i = some m → m.card = c → m.gone = false → Claim.KilledTeam s t i)
        ∧ Claim.KillsNoOther s t c fun m => m.card ≠ c)
      ∧ ((∃ i m, tget s.teams i = some m ∧ m.card = c ∧ m.gone = false ∧ m.origin = wid) →
        ∃ t k', exec (.killteam ctx card wid) s = .next t ∧ tget t.cards c = some k' ∧ k'.out = { k.out with killed := true }
          ∧ (∀ i m, tget s.teams i = some m → m.card = c → m.gone = false → m.origin = wid → Claim.KilledTeam s t i)
          ∧ Claim.KillsNoOther s t c fun m => m.card ≠ c ∨ m.origin ≠ wid
              ∧ ∀ p ∈ s.teams, p.2.card = c → p.2.origin = wid → m.resumption ≠ some p.2.base)

/-- R170, R171: a write of an ownership entry that would change the KIND or CTX of a granule which holds a resident team's
segment, a ring or saved state leaves it and sets OWNREJ; any other takes effect. Reserved bits read as zero.
Choices of the model it rests on: log 48. -/
def Sys2Proof.Claim.OwnershipWritesAreChecked : Prop :=
  ∀ (s : State) (cl g : Nat) (v : BitVec 16), cl < 24 → g < 512 → ∃ t, exec (.ownershipWrite cl g v) s = .next t
    ∧ t = { s with clusters := t.clusters } ∧ (∀ k, k ≠ cl → t.cluster k = s.cluster k)
    ∧ t.cluster cl = { s.cluster cl with owner := (t.cluster cl).owner, ownrej := (t.cluster cl).ownrej }
    ∧ (∀ k, k ≠ g → tgetD (t.cluster cl).owner k 0 = tgetD (s.cluster cl).owner k 0)
    ∧ (s.granuleHeld cl g = false → tgetD (t.cluster cl).owner g 0 = v &&& 0xC03F ∧ (t.cluster cl).ownrej = (s.cluster cl).ownrej)
    ∧ (s.granuleHeld cl g = true → tgetD (t.cluster cl).owner g 0 = tgetD (s.cluster cl).owner g 0
        ∧ ((t.cluster cl).ownrej = ((s.cluster cl).ownrej || tgetD (s.cluster cl).owner g 0 != v &&& 0xC03F)))

/-- R134, R265, R268, R280, R326, R344, R354: a write of the register aperture that is not naturally aligned is ignored;
the control blocks' words at their offsets take a full-width write as their own rules say, and a counter through the
aperture rises as it does by its own write; the write hits the watches of its line. Choices of the model it rests on:
log 59. -/
def Sys2Proof.Claim.ApertureWritesReachTheirRegisters : Prop :=
  ∀ (s : State) (n ch : Nat) (w : Word), n < 64 → ch < 64 →
    let seen := fun o => s.noteWrite (2 ^ 44 + o) 8
    let at_ := fun (o : Nat) (r : State → Host.Outcome State Fault Refusal) => exec (.registerWrite o 8 w) s = r (seen o)
    (∀ o k, k = 2 ∨ k = 4 ∨ k = 8 → o % k ≠ 0 → exec (.registerWrite o k w) s = .next s)
    ∧ at_ (0x1000 * n + 0x808) (fun s => .next (s.updCtx n fun c => { c with cmdarg := w }))
    ∧ at_ (0x800000 + 0x1000 * n + 0x20 * ch + 8) (exec (.chtailWrite n ch w))
    ∧ at_ (0x901000 + 64 * n) (fun s => .next (if (s.stream n).state = 0 then s.updStream n fun t => { t with srec := w } else s))
    ∧ at_ (0xB00000 + 32 * n + 8) (exec (.kickWrite n w))
    ∧ (w.getLsbD 0 = true → at_ (0xB00000 + 32 * n) (exec (.hostQueueEnable n w)))
    ∧ (w.getLsbD 0 = false → at_ (0xB00000 + 32 * n) (exec (.hostQueueDisable n w)))
    ∧ (n < 24 → at_ (0xC00000 + 0x100 * n + 16) (exec (.trdWrite n w)))
    ∧ at_ 0xC08010 (exec (.srdWrite w))
    ∧ (∀ o k x wt, tget s.threads k = some x → x.watch = some wt →
        (wt.ranges.any fun r => decide (2 ^ 44 + o < r.2) && decide (r.1 < 2 ^ 44 + o + 8)) = true →
        tget (seen o).threads k = some { x with watch := some { wt with hit := true } })

/-- R170, R171, R265, R268, R280, R326, R344, R354: writes to the ownership map, and to registers. -/
def Obligations.ApertureWritesAct : Prop := Claim.OwnershipWritesAreChecked ∧ Claim.ApertureWritesReachTheirRegisters


/-! ### Accesses and the Bruin engine -/

/-- Access `id` has one part, in this device's LP6 memory, whose words have no error, and may be performed (R245). -/
structure Sys2Proof.Claim.Due (s : State) (id : Nat) (o : MemOp) (p : Piece) (th : Thread) : Prop where
  op : tget s.ops id = some o
  pieces : o.pieces = [p]
  path : p.path ≠ .remote
  place : p.place + p.len ≤ 2 ^ 40
  mapped : p.mapped = true
  sound : ∀ f ∈ s.flaws, 8 * f.1 + 8 ≤ p.place ∨ p.place + p.len ≤ 8 * f.1
  order : s.inOrder id o = true
  stuck : o.stuck = false
  logged : o.logged = false
  here : (s.ctx o.ctx).saved = none
  thread : tget s.threads o.sid = some th
  alive : th.cond ≠ .ended

/-- A thread whose values pending under `tok` fill with `w`, wherever they have got to (R15), dead places apart (R27). -/
def Sys2Proof.Claim.filled (tok : Nat) (w : Word) (th : Thread) : Thread :=
  let f := fun v : Val => if v = .pend tok then .known w else v
  { th with v := Vector.ofFn fun i : Fin 32 => if th.vdead.getLsbD i = true then th.v[i] else f th.v[i],
            q := th.q.map f, b0 := th.b0.map f, b1 := th.b1.map f,
            x := th.x.map fun e => if e.dead = true then e else { e with val := f e.val },
            owed := th.owed.filter fun o => o.1 != tok }

/-- No hardware queue of the thread's team holds an entry pending under `tok`. -/
def Sys2Proof.Claim.unqueued (s : State) (th : Thread) (tok : Nat) : Prop :=
  ∀ tm, tget s.teams th.team = some tm → ∀ n, n < 8 → ∀ e ∈ (tm.queue n).entries, e.tok ≠ some tok

/-- R15, R122, R123, R129, R132, R134: a load in this device's memory fills its value, zero- or sign-extended,
wherever its token has got to, and changes no memory; a store writes its bytes and no other, hits every watch of a
line that it touches, and is complete; an integer atomic writes its new value and fills the old one. Choices of the
model it rests on: log 6, 10. -/
def Sys2Proof.Claim.AccessesArePerformed : Prop :=
  ∀ (s : State) (id tok : Nat) (o : MemOp) (p : Piece) (th : Thread), Claim.Due s id o p th → o.bank < 2 →
    let old := leNat (readMem s.mem p.place p.len)
    let stored := fun (t : State) (bs : List Byte) =>
      (∀ i, i < p.len → memGet t.mem (p.place + i) = bs.getD i 0)
      ∧ (∀ q, q < p.place ∨ p.place + p.len ≤ q → memGet t.mem q = memGet s.mem q)
      ∧ ∀ k x w, k ≠ o.sid → tget s.threads k = some x → x.watch = some w →
          (w.ranges.any fun r => decide (p.place < r.2) && decide (r.1 < p.place + p.len)) = true →
          tget t.threads k = some { x with watch := some { w with hit := true } }
    (∀ signed, o.act = .load [(p.len, signed, tok)] → Claim.unqueued s th tok → p.len ∈ [1, 2, 4, 8] →
      ∃ t, exec (.pendingValueFill id) s = .next t ∧ t.mem = s.mem ∧ tget t.ops id = none
        ∧ (∀ k, k ≠ id → tget t.ops k = tget s.ops k)
        ∧ tget t.threads o.sid = some (Claim.filled tok
            (if signed then (BitVec.ofNat (8 * p.len) old).signExtend 64 else BitVec.ofNat 64 old) th))
    ∧ (∀ bs n, o.act = .store bs → bs.length = p.len → o.wnum = some n → 0 < p.len →
      ∃ t, exec (.writeComplete id) s = .next t ∧ stored t bs ∧ tget t.ops id = none
        ∧ (∀ k, k ≠ id → tget t.ops k = tget s.ops k)
        ∧ vget (t.core o.core).open' o.bank [] = (vget (s.core o.core).open' o.bank []).erase n)
    ∧ ∀ (f : Nat → Nat → Nat) (opc : BitVec 7) (typ : BitVec 2) (b : Word),
        o.act = .atomic opc typ b 0 (some tok) → p.len = (if typ.toNat < 2 then 4 else 8) → Claim.unqueued s th tok →
        (opc, f) ∈ [(0x55#7, fun a b => a + b), (0x58, fun a b => a &&& b), (0x59, fun a b => a ||| b), (0x5A, fun a b => a ^^^ b),
                    (0x5B, fun _ b => b)] →
        ∃ t, exec (.pendingValueFill id) s = .next t
          ∧ stored t (leBytes p.len (f old (b.toNat % 2 ^ (8 * p.len)) % 2 ^ (8 * p.len)))
          ∧ ∃ x, tget t.threads o.sid = some x ∧ { x with watch := th.watch } = Claim.filled tok
              (if typ = 0 then (BitVec.ofNat 32 old).signExtend 64 else BitVec.ofNat 64 old) th

/-- R215, R217: a descriptor load that is the last of its entry makes the entry valid with the 24 words as memory holds them;
every Bruin command that captured the load has that snapshot, and the identifier fills. -/
def Sys2Proof.Claim.DescriptorLoadsComplete : Prop :=
  ∀ (s : State) (id tok n : Nat) (o : MemOp) (p : Piece) (th : Thread), Claim.Due s id o p th → p.len = 192 →
    o.act = .descriptor n tok → Claim.unqueued s th tok → tget (s.ctx o.ctx).desc n = some (.loading id) →
    let x : Snap := { words := (List.range 24).map fun i => BitVec.ofNat 64 (leNat (readMem s.mem (p.place + 8 * i) 8)), addr := p.va }
    ∃ t, exec (.descriptorLoadComplete id) s = .next t ∧ t.mem = s.mem ∧ tget t.ops id = none
      ∧ tget (t.ctx o.ctx).desc n = some (.valid x)
      ∧ (∀ k, k ≠ n → tget (t.ctx o.ctx).desc k = tget (s.ctx o.ctx).desc k)
      ∧ (∀ i, tget t.teams i = (tget s.teams i).map fun m => if m.ctx = o.ctx then
          { m with bruin := { m.bruin with cmds := m.bruin.cmds.map fun e =>
              { e with snaps := e.snaps.map fun q => (q.1, if q.2 = .loading id then .valid x else q.2) } } } else m)
      ∧ tget t.threads o.sid = some (Claim.filled tok (BitVec.ofNat 64 n) th)

/-- R15, R122, R123, R129, R132, R134, R215, R217: accesses, and loads of descriptors. -/
def Obligations.AccessesComplete : Prop := Claim.AccessesArePerformed ∧ Claim.DescriptorLoadsComplete

/-- The state as the pass of a team's queue finds it: waits marked, the pass counted (R224, R225, R361). -/
def Sys2Proof.Claim.served (s : State) (cl tid : Nat) : State :=
  let n := (s.cluster cl).bruinServed + 1
  (((s.bruinMark cl).updCluster cl fun c => { c with bruinServed := n }).countPass tid).updBruin tid fun q =>
    { q with lastServed := n, since := n, parked := false }

/-- R69 to R71, R218, R219, R220, R221, R226, R229: a latched command enters its queue once a place is free. The pass of the
picked queue zeroes or releases a tile and completes its command; the last k-step of a matrix product adds to every element
of the tile the rounded sum of its exact products, and completes it, or, where any sum is NaN, changes no element and stops
the queue with NAN_TRAP; a matrix command with bit 0 set stops it with DESCRIPTOR, 0xC1.
Choices of the model it rests on: log 8, 34. -/
def Obligations.BruinPassesRun : Prop :=
  ∀ (s : State) (cl tid : Nat) (tm : Team) (e : BEntry) (rest : List BEntry) (w : Word) (n : Nat),
    (∀ ix key, tget s.teams tid = some tm → (s.ctx tm.ctx).away = false → tm.finished = false → tm.gone = false →
      tm.bruin.cmds.length < 64 → tm.latched = some (ix, w, key) →
      ∃ t m x c, exec (.issueLatchEnter tid) s = .next t ∧ tget t.teams tid = some m ∧ m.bruin.cmds = tm.bruin.cmds ++ [x]
        ∧ x.cmd = .mma w ∧ m.bruin.accepted = tm.bruin.accepted + 1 ∧ m.cv.toList[ix]? = some c ∧ c.latch = none)
    ∧ (s.bruinPick cl = some tid → let u := Claim.served s cl tid
      tget u.teams tid = some tm → tm.bruin.cmds = e :: rest →
      let ends := fun (t : State) (m : Team) => exec (.bruinPass cl) s = .next t ∧ tget t.teams tid = some m
        ∧ m.bruin.cmds = rest ∧ m.bruin.done = tm.bruin.done + 1 ∧ m.bruin.prog = none
      let stops := fun (t : State) (m : Team) (code : BitVec 5) (extra : Nat) => exec (.bruinPass cl) s = .next t
        ∧ tget t.teams tid = some m ∧ m.bruin.stopped = true ∧ m.bruin.cmds = e :: rest
        ∧ ∃ r ∈ (t.ctx tm.ctx).waiting, r.code = code ∧ r.fatal = true ∧ r.wid = tm.base ∧ r.extra = BitVec.ofNat 14 extra
      (e.cmd = .mzero n → tm.bruin.prog = none → ∃ t m, ends t m ∧ t.mem = s.mem ∧ tget m.tiles n = some []
        ∧ ∀ k, k ≠ n → tget m.tiles k = tget tm.tiles k)
      ∧ (e.cmd = .mzeroRel n → tm.bruin.prog = none → ∃ t m, ends t m ∧ t.mem = s.mem ∧ tget m.tiles n = none
        ∧ ∀ k, k ≠ n → tget m.tiles k = tget tm.tiles k)
      ∧ (e.cmd = .mma w → tm.bruin.prog = none → w.getLsbD 0 = true → ∃ t m, stops t m 0x13 0xC1 ∧ m.tiles = tm.tiles)
      ∧ ∀ prog rows cols u1 u2, e.cmd = .mma w → n = bits w 62 59 → tm.bruin.prog = some prog →
        prog.step + 1 = mmaSteps w (e.desc 0) →
        let a := e.desc 0
        let b := e.desc 1
        let f3 := dFmt a == 0
        let ks := (List.range (kWidth a)).map fun j => 32 * bits w 34 23 + prog.step * kWidth a + j
        u.fetchLines tm.bruinEng a f3 ks 128 (mmaRow0 w a) = (u1, .ok rows) →
        u1.fetchLines tm.bruinEng b f3 ks 128 (mmaCol0 w) = (u2, .ok cols) →
        let old := tileList 16384 0 (if w.getLsbD 63 = true ∧ prog.step = 0 then [] else (tget tm.tiles n).getD [])
        let sum := fun i j => accStep f3 (old.getD (128 * i + j) 0) (rows.getD i []) (cols.getD j [])
        ((∀ i j, i < 128 → j < 128 → sum i j ≠ none) → ∃ t m x, ends t m ∧ tget m.tiles n = some x
          ∧ (∀ i j, i < 128 → j < 128 →
              some (BitVec.ofNat 32 ((tileList 16384 0 x).getD (128 * i + j) 0)) = (sum i j).map (BitVec.ofNat 32))
          ∧ ∀ k, k ≠ n → tget m.tiles k = tget tm.tiles k)
        ∧ ∀ i j, i < 128 → j < 128 → sum i j = none → ∃ t m, stops t m 0x14 n ∧ m.tiles = tm.tiles)

/-! ### Chains and copy engines -/

/-- R280, R281: a write of CHCFG with EN = 1 enables a disabled chain, or a binner's ring, whose word is in order, its
base of owner 0x00 and outside the windows, with its origin at CHDONE, and any other sets REJ; with EN = 0 it stores
the fields of a disabled chain, and disables an enabled one, whose entry runs on unless it is frozen or stalled; no
tail of a disabled chain keeps waiting. Choices of the model it rests on: log 36. -/
def Sys2Proof.Claim.ChainRegistersAct : Prop :=
  ∀ (s : State) (ctx ch : Nat) (w : Word), ch < 68 → let c := s.chain ctx ch
    let stored : Chain := { c with base := w &&& 0xFFFFFFFFFFFFF000, len := bits w 11 6, cluster := bits w 5 1, written := true }
    (w.getLsbD 0 = true → exec (.chainEnable ctx ch w) s = .next (
      if c.en = false ∧ c.draining = false ∧ bits w 11 6 ≠ 0 ∧ (s.ctx ctx).part.getLsbD (bits w 5 1) = true
          ∧ s.namesEctx ctx (if ch < 64 then ch else 0x1000 + (ch - 64)) = true
          ∧ bits w 63 56 = 0 ∧ (s.ctx ctx).window (w &&& 0xFFFFFFFFFFFFF000) = none then
        s.updChain ctx ch fun _ => { stored with en := true, frozen := false, stall := false, waitseq := false, line := none, origin := c.done,
                                                 next := c.done + 1, seg := w &&& 0xFFFFFFFFFFFFF000, slot := 0, run := none }
      else s.updCtx ctx fun c => { c with rej := true }))
    ∧ (w.getLsbD 0 = false → c.en = false → exec (.chainConfigWrite ctx ch w) s = .next (s.updChain ctx ch fun _ => stored))
    ∧ (w.getLsbD 0 = false → c.en = true → ∃ t, exec (.chainDisable ctx ch w) s = .next t ∧ t.mem = s.mem
      ∧ t.chain ctx ch = { c with
          en := false, frozen := false, stall := false, waitseq := false, line := none, tails := [],
          run := if c.frozen = true ∨ c.stall = true then none else c.run,
          draining := !c.frozen && !c.stall && c.run.isSome }
      ∧ ∀ x ∈ c.tails, x.bank < 2 → (vget (s.core x.core).open' x.bank []).Nodup →
          x.wnum ∉ vget (t.core x.core).open' x.bank [])

/-- R217, R284 to R286, R293, R295, R299: the entry at the walk's place is accepted, its snapshots captured, only when
it holds the next number, and the walk waits otherwise; a reserved operation freezes the chain with DESCRIPTOR, 0xD1.
NOP is done at once and WAIT once its timeline has reached its value. A done entry raises CHDONE by one, and the tails
it reaches are complete. Choices of the model it rests on: log 36. -/
def Sys2Proof.Claim.ChainEntriesRun : Prop :=
  ∀ (s : State) (ctx ch : Nat), ch < 64 → let c := s.chain ctx ch
    (∀ u bs, s.chainLooks ctx ch = true → c.slot ≠ c.len →
      s.engRead (s.chainEng ctx ch []) (c.seg + BitVec.ofNat 64 (64 * c.slot)) 64 = (u, .ok bs) → bs.length = 64 →
      let w := fun i => BitVec.ofNat 64 (leNat ((bs.drop (8 * i)).take 8))
      (w 0 ≠ c.next → exec (.chainEntryAccept ctx ch) s = .next (u.awaitLine ctx ch (c.seg + BitVec.ofNat 64 (64 * c.slot))))
      ∧ (w 0 = c.next → u.entryFault ctx (leWords 8 bs) = none → ∃ t r, exec (.chainEntryAccept ctx ch) s = .next t
        ∧ t.chain ctx ch = { c with run := some r, waitseq := false, line := none, next := c.next + 1, slot := c.slot + 1 }
        ∧ r.words = (List.range 8).map w ∧ r.pos = 0 ∧ r.finished = false ∧ r.cluster = c.cluster ∧ t.mem = u.mem
        ∧ (bits (w 1) 31 28 ∈ [1, 4, 5] → r.src = s.captureDesc ctx (bits (w 1) 11 0))
        ∧ (bits (w 1) 31 28 ∈ [1, 3, 4, 5] → r.dst = s.captureDesc ctx (bits (w 1) 23 12)))
      ∧ (w 0 = c.next → 7 ≤ bits (w 1) 31 28 → reservedAt (leWords 8 bs) (entReserved (leWords 8 bs)) = none →
        ∃ t, exec (.chainEntryAccept ctx ch) s = .next t ∧ (t.chain ctx ch).frozen = true
          ∧ ∃ r ∈ (t.ctx ctx).waiting, r.code = 0x13 ∧ r.extra = 0xD1 ∧ r.fatal = true ∧ r.wid = BitVec.ofNat 64 ch
              ∧ r.addr = c.seg + BitVec.ofNat 64 (64 * c.slot)))
    ∧ ∀ r, c.run = some r → c.frozen = false → (s.ctx ctx).frozen = false →
      (entOp r.words = 0 → exec (.chainNop ctx ch) s
        = .next (s.updChain ctx ch fun c => { c with run := some { r with finished := true } }))
      ∧ (entOp r.words = 6 → exec (.chainWait ctx ch) s = .next (
          if (wordAt r.words 3).toNat ≤ (s.timeline ctx (wordAt r.words 2).toNat).toNat then
            s.updChain ctx ch fun c => { c with run := some { r with finished := true } } else s))
      ∧ (r.finished = true → ∃ t, exec (.chainEntryComplete ctx ch) s = .next t ∧ t.mem = s.mem
        ∧ t.chain ctx ch = { c with
            done := c.done + 1, run := none, draining := false, tails := c.tails.filter fun x => decide ((c.done + 1).toNat < x.n.toNat) }
        ∧ ∀ x ∈ c.tails, x.n.toNat ≤ (c.done + 1).toNat → x.bank < 2 → (vget (s.core x.core).open' x.bank []).Nodup →
            x.wnum ∉ vget (t.core x.core).open' x.bank [])

/-- R217, R281, R284 to R286, R293, R295, R299: the registers of a chain, and its entries. -/
def Obligations.ChainsRun : Prop := Claim.ChainRegistersAct ∧ Claim.ChainEntriesRun

/-- Chain `ch` of a context has the turn of its copy engine with the last unit of an entry of operation `op` whose
snapshots have been checked (R293, R296). -/
structure Sys2Proof.Claim.LastUnit (s : State) (ctx ch op : Nat) (r : Running) : Prop where
  run : (s.chain ctx ch).run = some r
  kind : entOp r.words = op
  checked : op = 2 ∨ r.checked = true
  turn : s.copyNext r.cluster = some (ctx, ch)
  whole : r.todo = []
  more : r.pos < r.total
  last : r.total ≤ r.pos + if op = 2 then rawPart r.words r.pos else 1

/-- The burst of `i` leaves memory as the state `u` has it, its entry finished and the next turn after its chain (R296). -/
def Sys2Proof.Claim.Burst (i : Instr) (s u : State) (ctx ch : Nat) (r : Running) : Prop :=
  ∃ t q, exec i s = .next t ∧ t.mem = u.mem ∧ (t.chain ctx ch).run = some q ∧ q.finished = true ∧ q.words = r.words
    ∧ r.total ≤ q.pos ∧ (t.cluster r.cluster).copyTurn = 64 * ctx + ch + 1
    ∧ t.teams = s.teams ∧ t.groups = s.groups ∧ exec (.copyBurst r.cluster) s = .next t

/-- R73, R136, R287 to R291, R296: the last unit of each operation, and with it the burst of its copy engine. COPY of one
format copies the element's bits and of two formats its rounded value; RAW copies bytes; FILL writes the pattern's low
bits; GATHER takes the element of the index, and writes zero bits where the index is beyond the source; REDADD adds
the exact source value with one rounding, replacing the element as an atomic does. Choices of the model it rests on:
log 36. -/
def Obligations.CopyEnginesMoveData : Prop :=
  ∀ (s : State) (ctx ch : Nat) (r : Running), ch < 64 →
    let u := s.updRun ctx ch fun x => { x with checked := true }
    let e := s.chainEng ctx ch r.got
    let d := r.dstW
    let ix := unitIx d r.pos
    let n := fmtBytes (dFmt d)
    (∀ u1 u2 bs, Claim.LastUnit s ctx ch 2 r →
      u.engRead e (wordAt r.words 2 + BitVec.ofNat 64 r.pos) (rawPart r.words r.pos) = (u1, .ok bs) →
      u1.engWrite e (wordAt r.words 3 + BitVec.ofNat 64 r.pos) bs = (u2, .ok ()) → Claim.Burst (.raw ctx ch) s u2 ctx ch r)
    ∧ (∀ u1, Claim.LastUnit s ctx ch 3 r → dDxb d = false →
      u.engWrite e (elemAddr d ix) (leBytes n ((wordAt r.words 2).toNat % 2 ^ (8 * n))) = (u1, .ok ()) →
      Claim.Burst (.fill ctx ch) s u1 ctx ch r)
    ∧ (∀ u1 u2 bs, Claim.LastUnit s ctx ch 1 r → dDxb d = false → dFmt r.srcW = dFmt d →
      u.engRead e (elemAddr r.srcW ix) n = (u1, .ok bs) → bs.length = n → u1.engWrite e (elemAddr d ix) bs = (u2, .ok ()) →
      Claim.Burst (.copy ctx ch) s u2 ctx ch r)
    ∧ (∀ u1 u2 v, Claim.LastUnit s ctx ch 1 r → dDxb d = false → dFmt r.srcW ≠ dFmt d → u.elemNum e r.srcW ix = (u1, .ok v) →
      u1.engWrite e (elemAddr d ix) (leBytes n ((fmtOf (dFmt d)).encode 0 v)) = (u2, .ok ()) →
      Claim.Burst (.copy ctx ch) s u2 ctx ch r)
    ∧ (∀ u1 u2 bs, Claim.LastUnit s ctx ch 4 r → dDxb d = false →
      u.engRead e (elemAddr r.idxW [ix.getLastD 0]) (fmtBytes (dFmt r.idxW)) = (u1, .ok bs) →
      dSize r.srcW (dRank r.srcW - 1) ≤ leNat bs → u1.engWrite e (elemAddr d ix) (leBytes n 0) = (u2, .ok ()) →
      Claim.Burst (.gather ctx ch) s u2 ctx ch r)
    ∧ (∀ u1 u2 u3 bs cs, Claim.LastUnit s ctx ch 4 r → dDxb d = false → dFmt r.srcW = dFmt d →
      u.engRead e (elemAddr r.idxW [ix.getLastD 0]) (fmtBytes (dFmt r.idxW)) = (u1, .ok bs) →
      leNat bs < dSize r.srcW (dRank r.srcW - 1) →
      u1.engRead e (elemAddr r.srcW (ix.dropLast ++ [leNat bs])) n = (u2, .ok cs) → cs.length = n →
      u2.engWrite e (elemAddr d ix) cs = (u3, .ok ()) → Claim.Burst (.gather ctx ch) s u3 ctx ch r)
    ∧ ∀ u1 u2 u3 v bs ps, Claim.LastUnit s ctx ch 5 r → entIdx r.words = false →
      let a := elemAddr d (unlin (dSizes r.srcW) r.pos)
      u.elemNum e r.srcW (unlin (dSizes r.srcW) r.pos) = (u1, .ok v) → u1.onUo ctx a = false → a.toNat < 2 ^ 56 →
      u1.engRead e a 4 = (u2, .ok bs) →
      u2.engPlaces e a 4 true = (u3, .ok ps) →
      Claim.Burst (.redadd ctx ch) s (u3.replaceParts ps (leBytes 4 (f32.encode 0 (Machine.Num.add false (f32.decode (leNat bs)) v))))
        ctx ch r

/-! ### Render engines and consumers -/

/-- A strip of the rasteriser has ended: its records' queue is closed, nothing is in progress, and the timeline of the
rasteriser has risen by one (R310). -/
def Sys2Proof.Claim.StripEnded (s t : State) (cl : Nat) (r : Raster) : Prop :=
  (t.cluster cl).raster = none ∧ t.mem = s.mem
    ∧ t.timeline r.ctx (0x2000 + cl) = s.timeline r.ctx (0x2000 + cl) + 1
    ∧ ∀ tm, tget s.teams r.team = some tm → ∃ m, tget t.teams r.team = some m
        ∧ (m.queue (bits (wordAt (s.stream r.stream).odesc 0) 2 0)).closed = true
        ∧ (m.queue (bits (wordAt (s.stream r.stream).odesc 0) 2 0)).entries
            = (tm.queue (bits (wordAt (s.stream r.stream).odesc 0) 2 0)).entries

/-- R152, R161, R308 to R310, R337, R340: a job whose primitives are read and whose lists are written raises its
ring's CHDONE and timeline and is known under its frame. A rasteriser whose team is over, or whose tiles are done,
ends its strip; otherwise it walks the next tile, after a checkpoint whose predicted finish decides whether the level
rises by one, and freezes where a depth word lies in a dead segment. A quad record is pushed with stamp 0 while its
queue has room. Choices of the model it rests on: log 39, 40, 64. -/
def Obligations.RasterEnginesWork : Prop :=
  ∀ (s : State) (ctx b cl : Nat) (r : Raster), cl < 24 →
    (∀ run u v ls, s.binnerMoves ctx b = true → (s.chain ctx (64 + b)).run = some run → run.todo = [] →
      let d := (s.stream (bits (wordAt run.words 1) 37 32)).odesc
      s.binPrims (s.chainEng ctx (64 + b) run.got) d run.words (bits (wordAt run.words 1) 31 0) 0 (List.replicate (odNS d) [])
        = (u, .ok ls) →
      u.engWrites (s.chainEng ctx (64 + b) run.got) (ls.zipIdx.flatMap fun p => stripWrites (odNS d) run.words p.2 p.1) = (v, .ok ()) →
      ∃ t, exec (.binnerJob ctx b) s = .next t ∧ t.mem = v.mem ∧ (t.chain ctx (64 + b)).run = none
        ∧ (t.chain ctx (64 + b)).done = (s.chain ctx (64 + b)).done + 1
        ∧ tget (t.stream (bits (wordAt run.words 1) 37 32)).jobs (256 * (wordAt run.words 5).toNat + 4 * ctx + b)
            = some run.words)
    ∧ ((s.cluster cl).raster = some r →
      let d := (s.stream r.stream).odesc
      let all := stripTiles d r.strip
      let st := s.stream r.stream
      (((tget s.teams r.team).all fun t => t.finished || t.gone) = true →
        ∃ t, exec (.rasterStrip cl) s = .next t ∧ Claim.StripEnded s t cl r)
      ∧ ∀ tm, tget s.teams r.team = some tm → tm.finished = false → tm.gone = false → (s.ctx r.ctx).frozen = false →
        (r.begun = true → r.stalled = false → r.waiting = none → r.records = [] → r.tile = all → r.checked = all →
          (tm.queue (bits (wordAt d 0) 2 0)).init = true →
          ∃ t, exec (.rasterStrip cl) s = .next t ∧ Claim.StripEnded s t cl r)
        ∧ (r.begun = true → r.stalled = false → r.waiting = none → r.records = [] → 0 < r.tile → r.tile < all →
          r.checked < r.tile → r.tile % 16 = 0 → r.tras ≤ s.time.now →
          let limit : Rat := ((st.tNeed r.frame r.strip - bits (wordAt st.rec' 5) 31 0 : Int) : Rat)
          let finish : Rat := ((s.time.now : Rat) + ((all - r.tile : Nat) : Rat) * ((s.time.now - r.tras : Nat) : Rat) / r.tile) / 65536
          let u := if limit < finish ∧ st.level.toNat < 4 then
              s.updStream r.stream fun x => { x with level := x.level + 1, raises := x.raises + 1, prevRaised := true }
            else s
          (∀ v recs, u.rasterTile tm d r (u.stream r.stream).level.toNat = (v, .ok recs) →
            ∃ t, exec (.rasterStrip cl) s = .next t ∧ t.mem = v.mem
              ∧ (t.stream r.stream).level = (if limit < finish ∧ st.level.toNat < 4 then st.level + 1 else st.level)
              ∧ (t.stream r.stream).raises = (if limit < finish ∧ st.level.toNat < 4 then st.raises + 1 else st.raises)
              ∧ (t.cluster cl).raster = some { r with tile := r.tile + 1, checked := r.tile, records := recs })
          ∧ ∀ v code a, u.rasterTile tm d r (u.stream r.stream).level.toNat = (v, .error (.fault code a)) →
            ∃ t, exec (.rasterStrip cl) s = .next t ∧ (t.cluster cl).raster = none ∧ cl ∈ (t.ctx r.ctx).rasterFrozen
              ∧ ∃ x ∈ (t.ctx r.ctx).waiting, x.code = code ∧ x.fatal = true ∧ x.addr = a ∧ x.wid = BitVec.ofNat 64 (0x2000 + cl))
        ∧ ∀ w rest, r.records = w :: rest →
          let q := tm.queue (bits (wordAt d 0) 2 0)
          q.init = true → q.entries.length < 2 ^ q.logCap →
          ∃ t m, exec (.quadRecordPush cl) s = .next t ∧ (t.cluster cl).raster = some { r with records := rest }
            ∧ tget t.teams r.team = some m
            ∧ m.queue (bits (wordAt d 0) 2 0) = { q with tail := q.tail + 1, entries := q.entries ++ [{ stamp := 0, tok := none }] })

/-- Bytes of a frame's temporal unit: each of its parts has at least one, and how many more is a free value (log 45). -/
def Sys2Proof.Claim.unitLen (s : State) (st : Stream) : Nat :=
  (st.unitParts.map fun p => (Config.av1Length s.freeCtr p).toNat + 1).sum

/-- The bytes of a frame record (R320): frame, BSWR before it, length, and the rows coded as skip, DROPPED and KEY. -/
def Sys2Proof.Claim.recordBytes (st : Stream) (len skip flags : Nat) : List Byte :=
  [BitVec.ofNat 64 st.encF, st.bswr, BitVec.ofNat 64 (len % 2 ^ 32), BitVec.ofNat 64 (skip % 256 * 256 + flags)].flatMap
    fun w : Word => leBytes 8 w.toNat

/-- The frame of a stream has ended at its encoder: FRAMES and the stream's timeline have risen by one, and the next frame is
coded from its first row (R320). -/
def Sys2Proof.Claim.FrameEnded (s t : State) (n : Nat) : Prop :=
  (t.stream n).frames = (s.stream n).frames + 1 ∧ (t.stream n).encF = (s.stream n).encF + 1 ∧ (t.stream n).encRow = 0
    ∧ (t.stream n).encSkip = 0
    ∧ t.timeline (s.stream n).ctx (0x3000 + n) = s.timeline (s.stream n).ctx (0x3000 + n) + 1

/-- R306, R318, R320, R321, R341: the first ray of a queue finishes with its hit, U and V written before, or with the word
of a miss, and tl1 rises; the miss is also that of a ray whose inputs admit no hit. An encoder that has a row's strips
codes it, as skip if one is missed outside a key frame; an uncorrectable error in one is met first. After the last row
its frame is dropped exactly where the ring has no room for the unit, or cannot be written; else the unit is written
at BSWR, which rises by its length, and the reference frame kept. Either way a record goes to FRBASE + 32 × (FRAMES
mod its count), and the stream's timeline rises. A display sends its next line from the slot as it stands, and its
stream's timeline rises as the last line of a frame ends. Choices of the model it rests on: log 41, 45, 46. -/
def Obligations.RaysAndConsumersFinish : Prop :=
  ∀ (s : State) (tid n o : Nat),
    (∀ tm r rest, tget s.teams tid = some tm → tm.rays.rays = r :: rest → s.rayMoves tid = true → dstW r.dst = none →
      r.found = none →
      let ended := fun (u t : State) (w : Word) => exec (.rayFinish tid) s = .next t ∧ (∃ m, tget t.teams tid = some m
        ∧ m.rays.rays = rest ∧ m.rays.done = tm.rays.done + 1)
        ∧ (r.tok = none → t.mem = u.mem)
        ∧ ∀ th tok, r.tok = some tok → tget u.threads r.sid = some th → th.cond ≠ .ended →
            (∀ k, k < 8 → ∀ e ∈ (tm.queue k).entries, e.tok ≠ some tok) → th.team = tid →
            t.mem = u.mem ∧ tget t.threads r.sid = some (Claim.filled tok w th)
      (rayIn r.words = none → ∃ t, ended s t 0x7F800000FFFFFFFF)
      ∧ (∀ q u, rayIn r.words = some q → walkNode tm.rayEng q r.root 64 r.root (s, none, none) = (u, none, none) →
          ∃ t, ended u t 0x7F800000FFFFFFFF)
      ∧ ∀ q u x h v, rayIn r.words = some q → x = none ∨ x = some .found →
          walkNode tm.rayEng q r.root 64 r.root (s, none, none) = (u, x, some h) →
          let uv := leBytes 4 h.u.toF32 ++ leBytes 4 h.v.toF32
          let w := u.updRays tid fun q => { q with rays := { r with found := some (h.word, uv) } :: q.rays.drop 1 }
          (match r.place with
            | some p => v = w.store (p + 40) uv
            | none => w.engWrite tm.rayEng (w.uvAddr tm r) uv = (v, .ok ())) →
          ∃ t, ended v t (BitVec.ofNat 64 (h.t.toF32 * 2 ^ 32 + h.prim)))
    ∧ (let st := s.stream n
      ∀ xs, st.rowSlots = some xs → st.state = 1 → odCons st.odesc = 0 →
        let skip := st.encSkip + if (∃ x ∈ xs, x ≠ .ready) ∧ st.keyFrame = false then 1 else 0
        (s.rowFlawed n = true → exec (.encoderTileRow n) s = .next (s.readRow n))
        ∧ (s.rowFlawed n = false → st.encRow + 1 < codedRows st.odesc → exec (.encoderTileRow n) s
          = .next ((s.readRow n).updStream n fun t => { t with encRow := t.encRow + 1, encSkip := skip }))
        ∧ (s.rowFlawed n = false → codedRows st.odesc ≤ st.encRow + 1 → n < 4096 →
          let r := s.readRow n
          let size := bits (wordAt st.odesc 5) 31 0
          let len := Claim.unitLen s st
          let room := st.bswr.toNat + len ≤ st.bsrd.toNat + size
          let at' := wordAt st.odesc 6 + BitVec.ofNat 64 (32 * (st.frames.toNat % bits (wordAt st.odesc 5) 63 32))
          let ring := r.ringWrite st.ctx (wordAt st.odesc 4) size (len / max size 1 + 2) st.bswr.toNat (s.temporalUnit st)
          ∃ t, exec (.encoderTileRow n) s = .next t ∧ Claim.FrameEnded s t n
            ∧ (¬room ∨ ring = none → (t.stream n).bswr = st.bswr ∧ (t.stream n).encForceKey = true
              ∧ ∀ u, (if room then r.encoderRecord n st (wordAt st.odesc 4) else r).agentWrite st.ctx at' true
                  (Claim.recordBytes st 0 skip 2) = some u → t.mem = u.mem)
            ∧ ∀ u, room → ring = some u →
              (t.stream n).bswr = st.bswr + BitVec.ofNat 64 len ∧ (t.stream n).encForceKey = false
              ∧ ∀ v w, u.keepReference st = some v →
                  v.agentWrite st.ctx at' true (Claim.recordBytes st len skip (if st.keyFrame then 1 else 0)) = some w → t.mem = w.mem))
    ∧ (s.displayStream o = some n → s.lineDue (s.stream n) = true → n < 4096 →
      let st := s.stream n
      ∃ t, exec (.displayLine o) s = .next t ∧ t.mem = s.mem
        ∧ (st.line < odOH st.odesc → t.stream n = { st with line := st.line + 1 }
            ∧ tget t.package.sent o = some (st.lineF, st.line,
                (lineParts st.odesc (st.running st.lineF (st.line / odH st.odesc)) (st.line % odH st.odesc)).flatMap
                  fun p => readMem s.mem p.1 p.2))
        ∧ (odOH st.odesc ≤ st.line → (t.stream n).line = 0 ∧ (t.stream n).lineF = st.lineF + 1
            ∧ t.timeline st.ctx (0x3000 + n) = s.timeline st.ctx (0x3000 + n) + 1))


/-! ### Streams and acts -/

/-- R327, R328, R330, R343: ADMIT of a stream in use gives REJ 4; of one whose records pass every check, it admits the
stream with both rings zero and FIRSTF the first frame whose first act starts 10,000 ns from now or later; of one
whose record is faulty, it gives REJ 1 and a record in the context's queue. STOP, and the start of frame FIRSTF +
NFRAMES, take an admitted stream to state 2, and to state 0 when nothing of it is open; the last act that closes in state 2
takes it to state 0, unless an output is still due. Choices of the model it rests
on: log 43, 44. -/
def Obligations.StreamsStartAndStop : Prop :=
  ∀ (s : State) (n : Nat), n < 64 → let st := s.stream n
    (st.state ≠ 0 → exec (.streamAdmit n) s = .next (s.updStream n fun t => { t with rej := 4 }))
    ∧ (∀ c r d, st.state = 0 → s.admitChecks n st.srec = (c, .ok (r, d)) → 0 < bits (wordAt r 3) 31 0 →
      let start := fun f => (wordAt r 2).toNat + f * bits (wordAt r 3) 31 0
      let soon := s.time.now / 65536 + 10000 + bits (wordAt r 4) 31 0 + bits (wordAt r 4) 63 32
      ∃ t f, exec (.streamAdmit n) s = .next t ∧ (t.stream n).state = 1 ∧ (t.stream n).rec' = r ∧ (t.stream n).odesc = d
        ∧ (t.stream n).firstf = BitVec.ofNat 64 f ∧ soon ≤ start f ∧ (∀ k, k < f → start k < soon)
        ∧ (t.stream n).nextF = f ∧ (t.stream n).nextS = 0 ∧ (t.stream n).acts = []
        ∧ ∀ i, (i < (odRenderRing d).2 → memGet t.mem (2 ^ 41 + odCluster d * 2 ^ 25 + (odRenderRing d).1 + i) = 0)
            ∧ (i < (odOutputRing d).2 → memGet t.mem (2 ^ 41 + odCluster d * 2 ^ 25 + (odOutputRing d).1 + i) = 0))
    ∧ (∀ c code a e, st.state = 0 → s.admitChecks n st.srec = (some c, .error (.record code a e)) → s.resident c = true →
      ∃ t, exec (.streamAdmit n) s = .next t ∧ t.stream n = { st with rej := 1 } ∧ t.mem = s.mem
        ∧ ∃ x ∈ (t.ctx c).waiting, x.code = code ∧ x.addr = a ∧ x.fatal = false ∧ x.extra = BitVec.ofNat 14 e)
    ∧ (st.state = 1 →
      let stops := fun (p : Prop) (i : Instr) => (p → exec i s = .next (s.updStream n fun t => { t with state := 2 }))
        ∧ (¬p → exec i s = .next (s.updStream n fun t => { t with state := 0, outputs := [] }))
      let open' := st.acts ≠ [] ∨ ∃ g, st.nextOutput = some g
      stops open' (.streamStop n)
      ∧ (wordAt st.rec' 8 ≠ 0 → st.tStart (st.firstf.toNat + (wordAt st.rec' 8).toNat) 0 ≤ s.time.now / 65536 →
          stops open' (.streamFrameLimit n)))
    ∧ ∀ a c, st.state = 2 → st.nextClosed = some (a, c) → (∀ o ∈ st.acts, o.card = a.card) → ∃ t, exec (.actRetire n) s = .next t
        ∧ (t.stream n).acts = [] ∧ (t.stream n).state = if (t.stream n).nextOutput.isSome then 2 else 0

/-- R332 to R335, R338, R340, R342: at its time the next act of a stream starts, at the level of R338, with a flip
requested on each of its cores and its card open. An act's card that has retired well makes the output slot ready, or
due for its output card; one that has not, misses the strip, which counts once. An output card opens with its strip.
An act open at t_need is abandoned: its card is killed and its strip missed. Choices of the model it rests on: log 44. -/
def Obligations.ActsRun : Prop :=
  ∀ (s : State) (n : Nat), n < 64 → let st := s.stream n
    let keys := fun t : State => (t.stream n).acts.map fun a => (a.frame, a.strip, a.output)
    (st.state = 1 → st.tStart st.nextF st.nextS ≤ s.time.now / 65536 → wordAt st.rec' 8 = 0 →
      ∃ t, exec (.actStart n) s = .next t ∧ (t.stream n).frame = BitVec.ofNat 32 st.nextF
        ∧ (t.stream n).strip = BitVec.ofNat 16 st.nextS
        ∧ (t.stream n).level = BitVec.ofNat 3 (if st.prevRaised then min (bits (wordAt st.odesc 0) 28 26 + 1) 4
            else bits (wordAt st.odesc 0) 28 26)
        ∧ ((t.stream n).nextF, (t.stream n).nextS)
            = (if st.nextS + 1 = odNS st.odesc then (st.nextF + 1, 0) else (st.nextF, st.nextS + 1))
        ∧ keys t = keys s ++ [(st.nextF, st.nextS, false)]
        ∧ ∀ i, i < 8 → (wordAt st.rec' 0).getLsbD (24 + i) = true →
            (t.core (odCluster st.odesc * 8 + i)).flips
              = (s.core (odCluster st.odesc * 8 + i)).flips ++ [bits (wordAt st.rec' 0) 37 37])
    ∧ (∀ a c, st.nextClosed = some (a, c) → a.output = false → st.state = 1 →
      let g := a.frame * odNS st.odesc + a.strip
      let u := s.updStream n fun t => { t with acts := t.acts.filter fun o => o.card != a.card }
      ∃ t, exec (.actRetire n) s = .next t ∧ (t.stream n).acts = (st.acts.filter fun o => o.card != a.card)
        ∧ (c = 0 ∨ c = 3 → g ∉ st.missed → tget st.slots g = none → (t.stream n).misses = st.misses
          ∧ (wordAt st.rec' 7 = 0 → tget (t.stream n).slots g = some .ready
              ∧ t.mem = (((u.convertStrip st.odesc g a.strip).updStream n fun t =>
                  { t with slots := tset t.slots g .ready }).fillHalos st.odesc g a.strip).mem)
          ∧ (wordAt st.rec' 7 ≠ 0 → (t.stream n).outputs = st.outputs ++ [g]))
        ∧ (c ≠ 0 → c ≠ 3 → g ∉ st.missed → (t.stream n).misses = st.misses + 1 ∧ tget (t.stream n).slots g = some .missed
          ∧ g ∈ (t.stream n).missed)
        ∧ (c ≠ 0 → c ≠ 3 → g ∈ st.missed → (t.stream n).misses = st.misses))
    ∧ (∀ g, st.nextOutput = some g → 0 < odNS st.odesc → ∃ t, exec (.outputCardLaunch n) s = .next t
        ∧ (t.stream n).outputs = st.outputs.erase g
        ∧ keys t = keys s ++ [(g / odNS st.odesc, g % odNS st.odesc, true)])
    ∧ ∀ a k, s.nextAbandon st = some a → tget s.cards a.card = some k → (s.cluster (odCluster st.odesc)).raster = none →
      let g := a.frame * odNS st.odesc + a.strip
      ∃ t k', exec (.actAbandon n) s = .next t ∧ tget t.cards a.card = some k' ∧ k'.out = { k.out with deadlineMiss := true }
        ∧ k'.next = k'.total ∧ g ∈ (t.stream n).missed
        ∧ (t.stream n).misses = (if g ∈ st.missed then st.misses else st.misses + 1)
        ∧ ∀ o ∈ (t.stream n).acts, o.card = a.card → o.abandoned = true

/-! ### Swaps and failures -/

/-- R12, R269, R277, R330: a full swap of a context that no stream holds, and whose accesses are performed, saves its
threads, each in a group at its group's PC, and takes them off their slots; the threads of other contexts are as they
were, but for latches and watches. One that cannot save yet stops issuing, and one of a stream, or swapped out
already, does nothing. A context that has held its banks for its time slice is swapped out so when another waits for
its place. A restore to the same cores brings back every saved thread with its registers, and the saved contents of
its allocations. Choices of the model it rests on: log 48, 49. -/
def Obligations.ContextsSwapOutAndBack : Prop :=
  ∀ (s : State) (ctx : Nat), ctx < 64 →
    ((s.ctx ctx).saved ≠ none ∨ s.inStream ctx = true → exec (.contextSwapOut ctx) s = .next s)
    ∧ ((s.ctx ctx).saved = none → s.inStream ctx = false →
      (s.swapReady ctx = false →
        exec (.contextSwapOut ctx) s = .next (s.updCtx ctx fun c => { c with swapping := true }))
      ∧ (s.swapReady ctx = true → (∀ p ∈ s.groups, p.2.part = none) → ∃ t v, exec (.contextSwapOut ctx) s = .next t ∧ (t.ctx ctx).saved = some v
        ∧ (t.ctx ctx).swapping = false
        ∧ ∀ k th tm, tget s.threads k = some th → (∀ p ∈ s.threads, p.1 = k → p.2 = th) → tget s.teams th.team = some tm →
          (tm.ctx = ctx → tget t.threads k = none ∧ ∃ x, tget v.threads k = some x ∧ x.v = th.v ∧ x.q = th.q ∧ x.preds = th.preds
            ∧ x.wid = th.wid ∧ x.team = th.team
            ∧ (∀ g gr, th.cond = .inGroup g → tget s.groups g = some gr → x.pc = gr.pc ∧ x.cond = .filed))
          ∧ (tm.ctx ≠ ctx → ∃ b0 b1 w, tget t.threads k = some { th with b0 := b0, b1 := b1, watch := w })))
    ∧ (let spent := (s.ctx ctx).away = false ∧ s.inStream ctx = false ∧ (∃ p ∈ s.cores, p.2.banksOf ctx ≠ [])
          ∧ (s.ctx ctx).turnFrom + (s.ctx ctx).sliceNs ≤ s.time.now / 65536 ∧ ∃ y, y < 64 ∧ s.waitsFor ctx y = true
      (spent → exec (.timeSliceExpiry ctx) s = exec (.contextSwapOut ctx) (s.updCtx ctx fun c => { c with sliced := true }))
      ∧ (¬spent → exec (.timeSliceExpiry ctx) s = .next s))
    ∧ ∀ v, (s.ctx ctx).saved = some v → s.restorable ctx v [] = true → (v.threads.map Prod.fst).Nodup →
      (v.cells.map Prod.fst).Nodup →
      ∃ t, exec (.contextRestore ctx []) s = .next t ∧ (t.ctx ctx).saved = none
        ∧ (∀ p ∈ v.threads, ∃ x, tget t.threads p.1 = some x ∧ x.v = p.2.v ∧ x.q = p.2.q ∧ x.x = p.2.x ∧ x.preds = p.2.preds
            ∧ x.wid = p.2.wid ∧ x.team = p.2.team)
        ∧ ∀ c ∈ v.cells, memGet t.mem c.1 = c.2

/-- R278: where a part fails, what it holds is lost. A control core executes its packet again; the entries in
execution on a copy engine freeze with UNCORRECTABLE; the teams of a cluster, and those with a tile or a command on a
Bruin engine, are killed. Choices of the model it rests on: log 50. -/
def Obligations.FailedPartsLoseTheirWork : Prop :=
  ∀ (s : State) (k : Nat),
    (k < 4 → exec (.partFailure (.controlCore k)) s
      = .next (s.updCtl k fun c => { CtlCore.reset with code := c.code, lastQ := c.lastQ, fetchQ := c.fetchQ }))
    ∧ (∃ t, exec (.partFailure (.copyEngine k)) s = .next t ∧ t.mem = s.mem ∧ t.teams = s.teams ∧ ∀ x ch, x < 64 → ch < 68 →
        (∀ r, (s.chain x ch).run = some r → r.cluster = k → ch < 64 → (t.chain x ch).frozen = true
          ∧ ∃ r ∈ (t.ctx x).waiting, r.code = 0x19 ∧ r.fatal = true ∧ r.cluster = k)
        ∧ ((∀ r, (s.chain x ch).run = some r → r.cluster ≠ k ∨ 64 ≤ ch) → t.chain x ch = s.chain x ch))
    ∧ ∀ tid tm, tget s.teams tid = some tm → tm.gone = false → tm.killed = false → tm.core / 8 = k → (s.ctx tm.ctx).saved = none →
      (∃ t, exec (.partFailure (.cluster k)) s = .next t ∧ Claim.KilledTeam s t tid)
      ∧ (tm.tiles ≠ [] ∨ tm.bruin.cmds ≠ [] → ∃ t, exec (.partFailure (.bruin k)) s = .next t ∧ Claim.KilledTeam s t tid)

/-! ### Host queues -/

/-- R344, R349: a write of a queue's word 0 with EN = 1 enables a disabled queue with the word's fields, at packet
DONE, and on an enabled one sets REJ; with EN = 0 it stores the fields of a disabled one and stops the fetching of an
enabled one, whose packet in execution alone stays. A packet is fetched whole, once, while fewer than 64 stand and its
number is below KICK. Choices of the model it rests on: log 57, 63. -/
def Sys2Proof.Claim.HostQueuesFetch : Prop :=
  ∀ (s : State) (q : Nat) (w : Word), let h := s.hostq q
    let stored : HostQ := { h with
      rbase := w &&& 0xFFFFFFFFFFFFF000, ctx := bits w 11 6, qprio := bits w 5 2, logn8 := w.getLsbD 1, written := true }
    exec (.hostQueueEnable q w) s = .next (
      if h.en = true then s.updCtx h.ctx fun c => { c with rej := true }
      else s.updHostq q fun _ => { stored with en := true, stopped := false, fcode := 0 })
    ∧ exec (.hostQueueDisable q w) s = .next (s.updHostq q fun _ =>
      if h.en = true then { h with en := false, fetched := if (s.ctlCore (q % 4)).cur = some q then h.fetched.take 1 else [] }
      else stored)
    ∧ (h.en = true → h.stopped = false → h.fetched.length < 64 → h.done.toNat + h.fetched.length < h.kick.toNat →
      let n := h.done.toNat + h.fetched.length
      let a := BitVec.ofNat 64 (h.rbase.toNat / 4096 * 4096) + BitVec.ofNat 64 (64 * (n % if h.logn8 then 256 else 64))
      ∀ bs, s.agentRead h.ctx a false 64 = some bs → (s.ctx h.ctx).window a = none →
        exec (.packetFetch q) s = .next ((s.agentTouch h.ctx a false 64).updHostq q fun _ => { h with fetched := h.fetched ++
          [{ num := BitVec.ofNat 64 n, words := (List.range 8).map fun i => BitVec.ofNat 64 (leNat ((bs.drop (8 * i)).take 8)) }] }))
    ∧ (h.en = false ∨ h.kick.toNat ≤ h.done.toNat + h.fetched.length → exec (.packetFetch q) s = .next s)

/-- A packet that has executed: DONE has risen by one, and the next stands first (R346). -/
def Sys2Proof.Claim.executed (s : State) (q : Nat) : State :=
  (s.updHostq q fun h => { h with done := h.done + 1, fetched := h.fetched.drop 1, graph := none }).updCtl (q % 4) fun c =>
    { c with cur := none, lastQ := tset c.lastQ (s.hostq q).qprio q }

/-- R346 to R350: the packet that a control core executes. A NOP is done at once; WAIT is done once its timeline has
its value; SIGNAL raises an event timeline; FLUSH is done once no device write to its range is in flight; a fetch
fence is done once every earlier card has retired, and discards the packets fetched after it; LAUNCH and GRAPH accept
their cards, one that breaks R187 too, which fails acceptance. A packet with a reserved field
or a KIND above 6 stops its queue with a record, and has no effect. Choices of the model it rests on: log 57. -/
def Sys2Proof.Claim.PacketsExecute : Prop :=
  ∀ (s : State) (q : Nat) (p : Packet), s.packet q = some p → p.words.length = 8 → let h := s.hostq q
    let k := bits (wordAt p.words 0) 7 0
    let u := s.updCtl (q % 4) fun c => { c with cur := some q, lastQ := tset c.lastQ h.qprio q }
    let line := s.timeline h.ctx (wordAt p.words 1).toNat
    (s.packetFault q p = none →
      (k = 0 → exec (.packetNop q) s = .next (Claim.executed u q))
      ∧ (k = 3 → exec (.wait q) s = .next (if (wordAt p.words 2).toNat ≤ line.toNat then Claim.executed u q else u))
      ∧ (k = 4 → ∃ t, exec (.signal q) s = .next t ∧ t.mem = s.mem ∧ t.teams = s.teams ∧ t.hostq q
            = { h with done := h.done + 1, fetched := h.fetched.drop 1, graph := none }
          ∧ t.timeline h.ctx (wordAt p.words 1).toNat = (if line.toNat < (wordAt p.words 2).toNat then wordAt p.words 2 else line))
      ∧ (k = 5 → let a := (wordAt p.words 1).toNat
          let n := (wordAt p.words 2).toNat
          exec (.flush q) s = .next (if n = 0 ∨ u.flushWaits h.ctx a n = false then Claim.executed u q else u)
          ∧ (s.ops = [] → (∀ m ∈ s.teams, m.2.bruin.cmds = [] ∧ m.2.rays.rays = []) →
              (∀ x ch r, (s.chain x ch).run = some r → r.todo = []) → exec (.flush q) s = .next (Claim.executed u q))
          ∧ ∀ o ∈ s.ops, o.2.isStore = true → o.2.ctx = h.ctx → 0 < n →
              (∃ x ∈ o.2.pieces, rangesMeet x.va.toNat x.len a n = true) → exec (.flush q) s = .next u)
      ∧ (k = 6 → exec (.fetchfence q) s = .next (if ∃ c ∈ h.cards, tget s.cards c ≠ none then u else
            Claim.executed (u.updHostq q fun h => { h with cards := [], fetched := h.fetched.take 1 }) q))
      ∧ (k = 1 → ∀ v c,
          u.agentRead h.ctx (wordAt p.words 1) false 128 ≠ none ∨ u.cardAddrBad h.ctx (wordAt p.words 1) ≠ none →
          u.accept h.ctx (wordAt p.words 1) .launch (bits (wordAt p.words 2) 4 0) id ∈ [(v, .ok c), (v, .failed c)] →
          exec (.launch q) s = .next (Claim.executed (v.updHostq q fun h => { h with cards := h.cards ++ [c] }) q))
      ∧ (k = 2 → ∀ bs, h.graph = none → u.agentRead h.ctx (wordAt p.words 1) false (16 * bits (wordAt p.words 2) 12 0) = some bs →
          let n := bits (wordAt p.words 2) 12 0
          let ws := leWords (2 * n) bs
          let x := u.agentTouch h.ctx (wordAt p.words 1) false (16 * n)
          (∀ i, i < n → bits (wordAt ws (2 * i + 1)) 63 16 = 0 ∧ (x.agentRead h.ctx (wordAt ws (2 * i)) false 128 ≠ none
            ∨ x.cardAddrBad h.ctx (wordAt ws (2 * i)) ≠ none)) →
          let r := (x.presetCards h.ctx ws n).acceptRoots q ws n 0
          exec (.graph q) s = .next (if r.2 then Claim.executed r.1 q else r.1)))
    ∧ ∀ e, ((bits (wordAt p.words 0) 63 8 ≠ 0 ∧ e = (0x03, 256 * (8 + lowBit 64 (bits (wordAt p.words 0) 63 8))))
        ∨ (6 < k ∧ bits (wordAt p.words 0) 63 8 = 0 ∧ (∀ i, 1 ≤ i → i < 8 → wordAt p.words i = 0) ∧ e = (0x13, 0xF1))) →
      k = 0 ∨ 6 < k →
      ∃ t, exec (.packetNop q) s = .next t ∧ t.mem = s.mem ∧ (t.hostq q).stopped = true ∧ (t.hostq q).fcode = e.1
        ∧ (t.hostq q).fetched = [] ∧ (t.hostq q).done = h.done
        ∧ ∃ r ∈ (t.ctx h.ctx).waiting, r.code = BitVec.ofNat 5 e.1 ∧ r.extra = BitVec.ofNat 14 e.2 ∧ r.fatal = true
            ∧ r.addr = h.packetAddr p.num.toNat
/-! ### Encodings (R34 to R50, R351) -/

/-- R344, R346 to R350: host queues, and their packets. -/
def Obligations.HostPacketsRun : Prop := Claim.HostQueuesFetch ∧ Claim.PacketsExecute

/-- R34, R35, R41, R351: every well-formed instruction with an encoding is read back from its word, by a thread's
decoder or by a control core's, with every operand as it was, and nothing of the bytes after it is taken; and a word
that either decoder reads as an instruction is that instruction's encoding. -/
def Obligations.DecodingReadsEveryEncodingBack : Prop :=
  (∀ (i : Instr) (w : BitVec 32) (rest : List (BitVec 8)), i.wellFormed = true → encode i = some w →
    (decode (bytesOfWord w ++ rest) = .ok (i, rest)
      ∨ (decodeWord w = none ∧ decodeCx (bytesOfWord w ++ rest) = .ok (i, rest)))
    ∧ decodeTableWord 32 w.toNat = some i)
  ∧ ∀ (w : BitVec 32) (i : Instr), decodeWord w = some i ∨ decodeControl w = some i → encode i = some w

/-- Words of the rules that compute, with what they stand for. -/
def Sys2Proof.Claim.computing : List (BitVec 32 × Instr) :=
  [(0x02930006#32, .iadd 2 0x13 0 1 2), (0x38130008#32, .wid 0 0x13 2), (0x3A002604#32, .cvta 0 0 0x13 1),
   (0x3C332E00#32, .isap 0 6 3 0x17), (0x800022DA#32, .perm 0 0 0x11 0x36 1), (0x8214010C#32, .ballotP 0 0x14 3),
   (0x840124CC#32, .vote 0 0 1 0x12 0x33), (0x8600B800#32, .xld 0 0 0x5C 0), (0x88001300#32, .xst 0 0 0x13 0),
   (0x6A132600#32, .bbu 0 0x13 0x13 0)]

/-- Words of the rules for memory, queues, tasks and time, with what they stand for. -/
def Sys2Proof.Claim.memoryAndTasks : List (BitVec 32 × Instr) :=
  [(0xA0001428#32, .ld 0 0 0x14 2 2 0), (0xA609150D#32, .st 0 0x12 0x15 0 3 1),
   (0xAA00284A#32, .atomAdd 0 0 0x14 0x12 2), (0xAA02284A#32, .atomAdd 0 2 0x14 0x12 2), (0xBC000000#32, .fence 0 0),
   (0xEC002A0C#32, .waittl 0 0x15 3), (0xEE000000#32, .tlrd 0 0 0), (0x8A40B4E8#32, .qinit 1 0x5A 0x3A),
   (0x8C15000C#32, .qstat 0 0x15 3), (0x8E000000#32, .qclose 0 0), (0xD0002368#32, .post 0 0 0x11 0x5A),
   (0xD2000004#32, .workTry 0 0), (0xD4026650#32, .susp 0 2 0x33 0x14), (0xD4100050#32, .suspNow 0 0x14)]

/-- Words of the rules for control, descriptors, the engines and the system, with what they stand for. -/
def Sys2Proof.Claim.others : List (BitVec 32 × Instr) :=
  [(0x74005E00#32, .brx 0 0x2F), (0x78000000#32, .exit 0), (0x7C000000#32, .bkpt 0), (0x7C000004#32, .bkptStop 0),
   (0xD80060CC#32, .tdld 0 0 0x30 0x33), (0xDC006C00#32, .marm 0 0 0x36), (0xDE00004C#32, .mzeroRel 0 0 3),
   (0xE2006F68#32, .mst 0 0 0x37 0x5A), (0xE4006878#32, .mcf2 0 0x34 14), (0xFC00244C#32, .tlbi 0 0x12 0x13),
   (0xFA002428#32, .sysw 0 0x12 10), (0xF600A048#32, .pixw 0 0x50 0x12), (0xF43122D4#32, .rq 0 0x31 0x11 0x35),
   (0xFE500000#32, .hmod 1 0 0 0 0 0 0 0)]

/-- Words that the rules write out, and what they stand for: R49, R32, R104, R106, R108, R115, R116, R122, R129, R131, R138,
R139, R155, R159, R160, R164 to R168, R200, R201, R204, R215, R216, R223, R226, R232, R264, R265, R312, R315, R318, R319
and R351. -/
def Obligations.WordsOfTheRulesDecode : Prop :=
  (∀ p ∈ Claim.computing ++ Claim.memoryAndTasks ++ Claim.others, decodeWord p.1 = some p.2)
  ∧ decodeWord 0 = some .nop ∧ decodeWord 1 = none
  ∧ decodeControl 0x0005850B#32 = some (.cxRfetch 11 10) ∧ decodeControl 0x00C5950B#32 = some (.cxBfx 12 11 10)
  ∧ decodeControl 0x00C5A50B#32 = some (.cxSwait 12 11 10) ∧ decodeControl 0x0005B50B#32 = some (.cxDisp 11 10)

/-! ### Operands (R14, R38, R39, R46) -/

/-- A form that reads one source and discards its result. -/
def Sys2Proof.Claim.reads (g : BitVec 3) (x : BitVec 7) : Form := Claim.formU g 2 x 0

/-- The `himm` words of a run, in order. -/
def Sys2Proof.Claim.wides (run : List (BitVec 32)) : List (BitVec 22) :=
  (run.filter fun w => decide (w.toNat / 2 ^ 22 % 8 = 0)).map fun w => w.setWidth 22

/-- R38, R46: a selector gives the queue entry, the named register, the launch constant, the latch of the group that issued
last, zero, the lane number or the wide immediate of the run, made of one, two or three payloads; naming w0 to w7 gives the
entry at the head and pops it; a reserved selector is ILLEGAL_OPERAND. -/
def Obligations.SelectorsReadTheirSources : Prop :=
  ∀ (g : BitVec 3) (x y : BitVec 7) (d : BitVec 6) (u : BitVec 1) (s : State) (gid : Nat) (gr : Group) (sid : Nat) (th : Thread)
      (tm : Team),
    let reads := sourcesOf (Claim.reads g x) s gid gr sid th tm
    let n := x.toNat
    (n < 0x10 → reads = [vget th.q n (.known 0)])
    ∧ (0x10 ≤ n → n < 0x30 → reads = [vget th.v (n - 0x10) (.known 0)])
    ∧ (0x30 ≤ n → n < 0x50 → reads = [.known (vget tm.k (n - 0x30) 0)])
    ∧ (∀ e r, 0x50 ≤ n → n < 0x58 → (tm.queue (n - 0x50)).entries = e :: r → e.tok = none →
        reads = [.known (s.queueWord tm (tm.queue (n - 0x50)) (tm.queue (n - 0x50)).head)])
    ∧ (∀ v, (s.core gr.core).lastGroup = some gid → n = 0x58 → th.b0 = some v → reads = [v])
    ∧ (∀ v, (s.core gr.core).lastGroup = some gid → n = 0x59 → th.b1 = some v → reads = [v])
    ∧ (n = 0x5A → reads = [.known 0])
    ∧ (n = 0x5C → reads = [.known (BitVec.ofNat 64 (sid / 64 % 32))])
    ∧ (∀ p, n = 0x5B → Claim.wides gr.run = [p] →
        reads = [.known (p.signExtend 64)]
        ∧ sourcesOf (Claim.formR g d x x 0) s gid gr sid th tm = [.known (p.signExtend 64), .known (p.signExtend 64)])
    ∧ (∀ p q, n = 0x5B → Claim.wides gr.run = [p, q] → reads = [.known ((p ++ q).signExtend 64)])
    ∧ (∀ p q r, n = 0x5B → Claim.wides gr.run = [p, q, r] → reads = [.known ((p ++ q ++ r).setWidth 64)])
    ∧ (0x50 ≤ n → n < 0x58 → Ready (Claim.reads g x) s gid gr sid th tm →
        ∃ t m, exec (.mov g 2 x u) s = .next t ∧ tget t.teams th.team = some m
          ∧ (m.queue (n - 0x50)).entries = (tm.queue (n - 0x50)).entries.drop 1
          ∧ ∀ k, k < 8 → k ≠ n - 0x50 → m.queue k = tm.queue k)
    ∧ (0x5D ≤ n → Alone s gid gr sid th tm → tm.frozen = false → runFault tm.hdr gr.run = none → th.guard g = true →
        gr.window = none → runPart gr.run 1 = none → 0 < tm.hdr.ver →
        ∃ t, exec (.mov g 2 x u) s = .next t ∧ Faulted s t gid gr sid th tm (freezeFault 0x02 0 (4 * n))
          ∧ ∃ t2, exec (.iadd g 2 (y &&& 0x0F#7) x 2) s = .next t2
            ∧ Faulted s t2 gid gr sid th tm (freezeFault 0x02 0 (1 + 4 * n)))

/-- R14, R39: a destination code says where a value goes: the queue, with its fifteen youngest entries moved up one
place; the latch; a named register, live from then on; or a hardware queue, as a new last entry with the stamp of the
last issued write. Code 0x02 discards the value. A reserved code is ILLEGAL_OPERAND, position 3. -/
def Obligations.DestinationsTakeValues : Prop :=
  ∀ (g : BitVec 3) (d : BitVec 6) (x : BitVec 7) (s : State) (gid : Nat) (gr : Group) (sid : Nat) (th : Thread) (tm : Team),
    let f := Claim.formU g d x 0
    let old := seen s gid gr th
    let n := d.toNat
    (∀ w, Ready f s gid gr sid th tm → wordsOf f s gid gr sid th tm = [w] →
      ∃ t h m, exec (.mov g d x 1) s = .next t ∧ tget t.threads sid = some h ∧ tget t.teams th.team = some m
        ∧ (n = 1 ∨ n = 2 → h.q = old.q)
        ∧ (n ≠ 1 → n ≠ 2 → vget h.q 0 (.known 0) = .known w
            ∧ ∀ k, k < 15 → vget h.q (k + 1) (.known 0) = vget old.q k (.known 0))
        ∧ (n = 2 → h.b0 = old.b0 ∧ h.b1 = old.b1)
        ∧ (n ≠ 2 → h.b0 = some (.known w) ∧ h.b1 = old.b0)
        ∧ (∀ k, k < 32 → vget h.v k (.known 0) = if n = 0x10 + k then .known w else vget old.v k (.known 0))
        ∧ (0x10 ≤ n → n < 0x30 → (runDrops gr.run).testBit (n - 0x10) = false → h.vdead.getLsbD (n - 0x10) = false)
        ∧ ∀ k, k < 8 →
            (m.queue k).entries = (tm.queue k).entries.drop (if x.toNat = 0x50 + k then 1 else 0)
              ++ (if n = 0x30 + k then
                    [{ stamp := vget (s.core (sidCore sid)).iw (sidBank sid) 0, tok := none }] else [])
            ∧ (n = 0x30 + k → t.queueWord m (m.queue k) (tm.queue k).tail = w))
    ∧ ((3 ≤ n ∧ n < 0x10) ∨ 0x38 ≤ n → x.toNat < 0x10 → Alone s gid gr sid th tm → tm.frozen = false →
        runFault tm.hdr gr.run = none → th.guard g = true → gr.window = none → runPart gr.run 1 = none →
        0 < tm.hdr.ver → ∃ t, exec (.mov g d x 1) s = .next t ∧ Faulted s t gid gr sid th tm (freezeFault 0x02 0 (3 + 4 * n)))

/-! ### Formats and tensors (R64, R66, R211, R212) -/

/-- The rational number that a value is, if it is one. -/
def Sys2Proof.Claim.rat : Machine.Num → Option Rat
  | .fin neg m e => some ((if neg then -1 else 1) * (m : Rat) * (2 : Rat) ^ e)
  | _ => none

/-- R64, R66: a DXB element of sign s, selector sel and magnitude m is (−1)^s × (m/d) × 2^(E−127), where d is 32 or 2
and E the exponent that sel chooses; it is zero or between 2^−132 and (63/32) × 2^127, and is exact in FP32 and in
BF16. Every element of a block with an exponent 0xFF is NaN, which converts to the canonical NaN. -/
def Obligations.DxbValuesAreExact : Prop :=
  ∀ (eight : Bool) (sg sel m ea eb rnd : Nat) (f : FFmt), sg < 2 → sel < 2 → m < (if eight then 64 else 4) → rnd < 4 →
    f = ⟨8, 23⟩ ∨ f = ⟨8, 7⟩ →
    let k := if eight then 64 else 4
    let el := sg * (2 * k) + sel * k + m
    (ea < 255 → eb < 255 →
      let q : Rat := (if sg = 1 then -1 else 1) * ((m : Rat) / (if eight then 32 else 2))
        * (2 : Rat) ^ (((if sel = 0 then ea else eb : Nat) : Int) - 127)
      Claim.rat (dxbValue eight el ea eb) = some q
      ∧ Claim.rat (f.decode (f.encode rnd (dxbValue eight el ea eb))) = some q
      ∧ (q = 0 ∨ ((2 : Rat) ^ (-132 : Int) ≤ q.abs ∧ q.abs ≤ 63 / 32 * (2 : Rat) ^ (127 : Int))))
    ∧ (ea = 255 ∨ eb = 255 → dxbValue eight el ea eb = .nan
      ∧ f.encode rnd (dxbValue eight el ea eb) = 0xFF * 2 ^ f.fb + 2 ^ (f.fb - 1))

/-- Σ id × STRIDEd over dimensions `lo` and up of an index. -/
def Sys2Proof.Claim.strides (d : List Word) (ix : List Nat) (lo : Nat) : Int :=
  (((List.range ix.length).filter fun k => decide (lo ≤ k)).map fun k => (ix.getD k 0 : Int) * (d.getD (9 + k) 0).toInt).foldl
    (· + ·) 0

/-- R211, R212: the address of an element of a tensor that is not DXB, and of the block and the exponent pair of an
element of one that is; the engines read the element there. -/
def Obligations.ElementsLieWhereTheyShould : Prop :=
  ∀ (d : List Word) (ix : List Nat) (s : State) (e : Eng), 0 < ix.length →
    let base := (d.getD 1 0).toNat
    let b := if dFmt d = 3 then 32 else 16
    let off := Claim.strides d ix 1 + ((ix.headD 0 / 32 * b : Nat) : Int)
    let i := ix.headD 0 % 32
    let block := BitVec.ofInt 64 (base + off)
    let pair := BitVec.ofInt 64 ((d.getD 2 0).toNat + 2 * off / b)
    (dFmt d ≠ 3 → dFmt d ≠ 4 → ∀ bs t, s.engRead e (BitVec.ofInt 64 (base + Claim.strides d ix 0)) (fmtBytes (dFmt d))
        = (t, .ok bs) →
      s.elemNum e d ix = (t, .ok ((fmtOf (dFmt d)).decode (leNat bs))))
    ∧ (dFmt d = 3 → ∀ x t p q u, s.engRead e (block + BitVec.ofNat 64 i) 1 = (t, .ok [x]) →
      t.engRead e pair 2 = (u, .ok [p, q]) →
      s.elemNum e d ix = (u, .ok (dxbValue true x.toNat p.toNat q.toNat)))
    ∧ (dFmt d = 4 → ∀ x t p q u, s.engRead e (block + BitVec.ofNat 64 (i / 2)) 1 = (t, .ok [x]) →
      t.engRead e pair 2 = (u, .ok [p, q]) →
      s.elemNum e d ix
        = (u, .ok (dxbValue false (if i % 2 = 0 then x.toNat % 16 else x.toNat / 16) p.toNat q.toNat)))

/-! ### Admission (R329) -/

/-- The share of a core's time that a stream takes: NS × (BUDGET + UPBUDGET) / TFRAME. -/
def Sys2Proof.Claim.share (t : Stream) : Rat :=
  (odNS t.odesc * (bits (wordAt t.rec' 4) 63 32 + bits (wordAt t.rec' 5) 63 32) : Nat) / (bits (wordAt t.rec' 3) 31 0 : Nat)

/-- The pixels that an encoder stream takes in a second: OW × OH / TFRAME. -/
def Sys2Proof.Claim.pixels (t : Stream) : Rat :=
  (bits (wordAt t.odesc 0) 63 48 * bits (wordAt t.odesc 0) 47 32 * 1000000000 : Nat) / (bits (wordAt t.rec' 3) 31 0 : Nat)

/-- R329: a stream that ADMIT admits leaves every core of it with at most 0.85 of its time taken, and, if it is an
encoder's, the encoder streams together with at most 7,962,624,000 pixels per second. -/
def Obligations.AdmissionKeepsCapacity : Prop :=
  ∀ (s t : State) (n : Nat), n < 64 → (s.stream n).state = 0 → exec (.streamAdmit n) s = .next t → (t.stream n).state = 1 →
    (∀ p ∈ s.streams, p.2.state ≠ 0 → 0 < bits (wordAt p.2.rec' 3) 31 0) →
    let new := t.stream n
    let others := (s.streams.filter fun p => p.1 != n && p.2.state != 0).map Prod.snd
    (∀ i, i < 8 → (wordAt new.rec' 0).getLsbD (24 + i) = true →
      Claim.share new + ((others.filter fun o => odCluster o.odesc == odCluster new.odesc
        && (wordAt o.rec' 0).getLsbD (24 + i)).map Claim.share).sum ≤ 17 / 20)
    ∧ (bits (wordAt new.odesc 0) 23 22 = 0 →
      Claim.pixels new + ((others.filter fun o => bits (wordAt o.odesc 0) 23 22 == 0).map Claim.pixels).sum ≤ 7962624000)

/-! ### The device as a whole -/

/-- R114, R265, R323, R344, R366, R369, R378: right after reset nothing is resident, every queue, chain and stream is
disabled, and the registers hold the values that the rules give. -/
def Obligations.ResetGivesTheValuesOfTheRules : Prop :=
  let s := State.reset
  s.threads = [] ∧ s.teams = [] ∧ s.cards = [] ∧ s.time.now = 0 ∧ s.time.en = false ∧ s.time.rateadj = 0
  ∧ s.package.modlimit = 1350 ∧ s.package.slope = 100 ∧ s.package.icrit = 2200 ∧ s.package.racklimit = 0 ∧ s.package.kills = 0
  ∧ s.fabric.pod = 0 ∧ s.fabric.fto = 10000 ∧ s.package.booted = false
  ∧ ∀ k : Nat, (s.cluster k).fmhz = 1700 ∧ (s.cluster k).grant = 0 ∧ (s.cluster k).bias = 0 ∧ (s.cluster k).floor = false
    ∧ (s.cluster k).live = [] ∧ (s.cluster k).ownrej = false ∧ (s.core k).dqsplit = 256
    ∧ (s.ctx k).locbase = 0x00FFFFFC00000000#64 ∧ (s.ctx k).shrbase = 0x00FFFFFD00000000#64
    ∧ (s.ctx k).clubase = 0x00FFFFFE00000000#64 ∧ (s.ctx k).locsz = 0 ∧ (s.ctx k).tqhead = 0 ∧ (s.ctx k).tqtail = 0
    ∧ (s.ctx k).rej = false ∧ (s.ctx k).tqovf = false ∧ (s.hostq k).en = false ∧ (s.stream k).state = 0
    ∧ (∀ pa, k < 64 → s.groupAdmits pa k = true) ∧ s.memOk

/-- What a step makes of a word's outcome: a team whose access has read an uncorrectable word of the page tables is killed
(R367), the core's clock is counted (R360), and its turn is over, but for the dump of a core that the word stopped (R358). -/
def Sys2Proof.Claim.turnOver (core : Nat) (rest : List Nat) : Host.Outcome State Fault Refusal → Host.Outcome State Fault Refusal
  | .next x =>
    let t := x.killLost
    let todo := if (t.core core).stop.requested = true ∧ ((t.core core).stop.stopped = true ∨ (t.core core).holder = none)
      then (core + 384) :: rest else rest
    .next { (t.countClock core 0) with todo := todo, issuing := none, stalled := false, scored := false }
  | x => x

/-- The state before a word of group `gid` alone in its core's rotation: its mark has risen, and it is ready (R149). -/
def Sys2Proof.Claim.marked (s : State) (core gid : Nat) : State :=
  { s with groups := tmap s.groups fun i g =>
      if g.core = core then
        if i = gid then { g with mark := (if g.wasReady then g.mark else 0) + 1, wasReady := true } else { g with wasReady := false }
      else g }

/-- A core's turn has come, and nothing comes before its word; `turn` is the core's number, or 192 more where its word has
waited for the others' because it takes a task (R199). -/
structure Sys2Proof.Claim.Next (s : State) (turn core : Nat) (rest : List Nat) : Prop where
  runs : s.package.halted = false
  booted : s.package.booted = true
  agenda : s.agenda = []
  control : s.ctlTurn = none
  first : s.todo = turn :: rest
  number : core = turn % 192
  events : s.coreEvent core = none
  running : (s.core core).stop.stopped = false
  ofCore : turn < 576
  power : s.withheld core = false

/-- The bytes at a group's PC are read as instruction `i`, in state `s` and with the translation, and the use of a bank that
holds them, noted in `t` (R34, R99, R151): a word that is no instruction is ILLEGAL_OPCODE. They have no error. -/
def Sys2Proof.Claim.fetches (s t : State) (g : Group) (i : Instr) : Prop :=
  ∃ tm u p o x z, g.threads.head?.bind s.teamOf = some tm ∧ s.noCode tm.ctx g.pc = false
    ∧ s.translateTlb (g.core / 8) .fetch tm.ctx g.pc.toNat { read := false, write := false, exec := true, eng := false }
      = (u, .ok p o x z)
    ∧ u.deadRange p 4 = false ∧ (∀ f ∈ u.flaws, 8 * f.1 + 8 ≤ p ∨ p + 4 ≤ 8 * f.1) ∧ t = u.touchBanks p 4
    ∧ (decode (u.readLoc p 4) = .ok (i, []) ∨ ∃ w, decode (u.readLoc p 4) = .error (.noInstruction w) ∧ i = .illegalOpcode w)

/-- R34, R41, R148, R199, R351: a step executes what comes next: a step that the surroundings bring; the word at a control
core's pc; the instruction that the bytes at the PC of the group decode to, where the group is the one in its core's
rotation, or holds its core's issue slot; in the deque units' turn a post or a delivery that has come; at the end of a
clock, a step of the device itself, and else the next clock.
A word that waits leaves everything as it was, and the core's turn is over. Choices of the model it rests on: log 1, 2. -/
def Obligations.StepRunsTheDecodedInstruction : Prop :=
  ∀ (s : State) (i : Instr), s.package.halted = false →
    (∀ r, s.agenda = i :: r → encode i = none → step s = exec i { s with agenda := r })
    ∧ (∀ k w, s.agenda = [] → s.package.booted = true → s.ctlTurn = some k →
        tget (s.ctlCore k).code (s.ctlCore k).pc.toNat = some w → decodeControl w = some i → step s = exec i s)
    ∧ (∀ turn core rest gid g, Claim.Next s turn core rest → tget s.groups gid = some g → g.core = core → s.askable core g = true →
        g.from' ≤ s.clk → s.spentTeam g = none → (turn < 192 → s.takesWork gid = false) →
        (∀ t, (s.core core).holder = none → (s.core core).rotation = [gid] → Claim.fetches s t g i →
          ((∀ x, exec i { t with issuing := some gid, stalled := false } = .next x → x.stalled = false) →
            ∀ u, Claim.fetches (Claim.marked s core gid) u g i →
              step s = Claim.turnOver core rest (exec i { u with issuing := some gid, stalled := false }))
          ∧ (∀ x, exec i { t with issuing := some gid, stalled := false } = .next x → x.stalled = true →
              { x with clusters := s.clusters, stalled := s.stalled, scored := s.scored, issuing := s.issuing } = s →
              ∃ y, step s = .next y ∧ y.todo = rest ∧ y.threads = s.threads ∧ y.mem = s.mem ∧ y.ops = s.ops ∧ y.teams = s.teams))
        ∧ (∀ t, (s.core core).holder = some gid → Claim.fetches s t g i →
          (∀ x, exec i { t with issuing := some gid, stalled := false } = .next x → x.stalled = false) →
          step s = Claim.turnOver core rest (exec i { t with issuing := some gid, stalled := false })))
    ∧ (∀ rest, s.agenda = [] → s.package.booted = true → s.ctlTurn = none → s.todo = dequeTurn :: rest →
        (s.dequeEvent = some i → step s = exec i s) ∧ (s.dequeEvent = none → step s = .next { s with todo := rest }))
    ∧ (s.agenda = [] → s.package.booted = true → s.ctlTurn = none → s.todo = [] →
        (s.ownEvent = some i → step s = exec i s) ∧ (s.ownEvent = none → step s = .next s.tick))

/-- Memory keeps its canonical form (the model's own, log 4): every step from a state whose memory has it leads to a
state whose memory has it. -/
def Obligations.MemoryStaysCanonical : Prop :=
  ∀ s t : State, s.memOk → step s = .next t → t.memOk
/-! ### Functions and sums of exact values, rounded once -/

/-- a × 2^i ≤ b × 2^j. -/
def Sys2Proof.Claim.le2 (a : Nat) (i : Int) (b : Nat) (j : Int) : Prop :=
  a * 2 ^ (i - min i j).toNat ≤ b * 2 ^ (j - min i j).toNat

/-- R59, R91: frcp, frsq and fsqrt of a non-zero finite value of the format, by the inequalities that their exact
values meet: 1/x, 1/√x and √x lie within half a unit of the last place of the result under `.rn`, and the result is
the next value of the format on the mode's side in the other modes of frcp and fsqrt (1 toward zero, 2 up, 3 down).
frsq and fsqrt of a negative value are NaN (R92). -/
def Sys2Proof.Claim.SpecialFunctionsRoundOnce : Prop :=
  ∀ (f : FFmt) (x : Nat) (neg : Bool) (m : Nat) (e : Int), f ∈ [f32, f64, f16, bf16] → f.decode x = .fin neg m e → m ≠ 0 →
    (∀ n g, f.decode (Fn.rcp.apply f 0 x) = .fin neg n g →
      Claim.le2 ((2 * n - 1) * m) (g - 1 + e) 1 0 ∧ Claim.le2 1 0 ((2 * n + 1) * m) (g - 1 + e))
    ∧ (∀ rnd n g, 0 < rnd → rnd < 4 → f.decode (Fn.rcp.apply f rnd x) = .fin neg n g →
      f.infBits - 1 ≠ Fn.rcp.apply f rnd x % 2 ^ (f.width - 1) →
      if rnd = 1 ∨ (rnd = 3 ∧ neg = false) ∨ (rnd = 2 ∧ neg = true) then
        Claim.le2 (n * m) (g + e) 1 0 ∧ ¬ Claim.le2 ((n + 1) * m) (g + e) 1 0
      else ¬ Claim.le2 1 0 ((n - 1) * m) (g + e) ∧ Claim.le2 1 0 (n * m) (g + e))
    ∧ (f.decode (Fn.rcp.apply f 0 x) = .inf neg ∨ ∃ n g, f.decode (Fn.rcp.apply f 0 x) = .fin neg n g)
    ∧ (neg = true → ∀ rnd, Fn.rsq.apply f rnd x = f.nanBits ∧ Fn.sqrt.apply f rnd x = f.nanBits)
    ∧ (neg = false →
      (∃ n g, f.decode (Fn.sqrt.apply f 0 x) = .fin false n g
        ∧ Claim.le2 ((2 * n - 1) ^ 2) (2 * (g - 1)) m e ∧ Claim.le2 m e ((2 * n + 1) ^ 2) (2 * (g - 1)))
      ∧ (∀ rnd, rnd = 1 ∨ rnd = 3 → ∃ n g, f.decode (Fn.sqrt.apply f rnd x) = .fin false n g
        ∧ Claim.le2 (n ^ 2) (2 * g) m e ∧ ¬ Claim.le2 ((n + 1) ^ 2) (2 * g) m e)
      ∧ (∃ n g, f.decode (Fn.sqrt.apply f 2 x) = .fin false n g
        ∧ ¬ Claim.le2 m e ((n - 1) ^ 2) (2 * g) ∧ Claim.le2 m e (n ^ 2) (2 * g))
      ∧ ∃ n g, f.decode (Fn.rsq.apply f 0 x) = .fin false n g
        ∧ Claim.le2 ((2 * n - 1) ^ 2 * m) (2 * (g - 1) + e) 1 0 ∧ Claim.le2 1 0 ((2 * n + 1) ^ 2 * m) (2 * (g - 1) + e))

/-- The pairs whose exact products one step of a sum adds (R69 to R71): of two operands, or in three passes of their
parts. -/
def Sys2Proof.Claim.pairs (f3 : Bool) (a b : List Opnd) : List (Machine.Num × Machine.Num) :=
  (a.zip b).flatMap fun p => if f3 then [(p.1.hi, p.2.hi), (p.1.hi, p.2.lo), (p.1.lo, p.2.hi)] else [(p.1.full, p.2.full)]

/-- A finite product as a multiple of 2^q. -/
def Sys2Proof.Claim.multiple (q : Int) : Machine.Num × Machine.Num → Int
  | (.fin a m e, .fin b n d) => (if a = b then 1 else -1) * (m * n * 2 ^ (e + d - q).toNat : Nat)
  | _ => 0

/-- R69 to R71: one step of a sum over finite operands: the exact products are summed exactly, that sum is rounded
once to FP32 to nearest, and it is added to the accumulator by one FP32 addition, which rounds once too; a product
that is NaN ends the sum. In three passes the products are a.hi × b.hi, a.hi × b.lo and a.lo × b.hi, and an operand's
parts are the FP32 value with its low 16 bits cleared and the rest rounded to BF16. -/
def Sys2Proof.Claim.SumsRoundOnce : Prop :=
  ∀ (f3 : Bool) (c : Nat) (a b : List Opnd) (q : Int),
    ((∀ x ∈ a ++ b, x.full.special = false) →
      (∀ p ∈ Claim.pairs f3 a b, ∃ s m e t n d, p = (.fin s m e, .fin t n d) ∧ q ≤ e + d) →
      let z := ((Claim.pairs f3 a b).map (Claim.multiple q)).sum
      let part := f32.round 0 (decide (z < 0)) z.natAbs q false
      ∀ s m e t n d, f32.decode c = .fin s m e → f32.decode part = .fin t n d →
        let w : Int := (if s then -1 else 1) * (m * 2 ^ (e - min e d).toNat : Nat)
          + (if t then -1 else 1) * (n * 2 ^ (d - min e d).toNat : Nat)
        w ≠ 0 → accStep f3 c a b = some (f32.round 0 (decide (w < 0)) w.natAbs (min e d) false))
    ∧ ((∃ p ∈ a.zip b, p.1.full.mul p.2.full = .nan) → accStep f3 c a b = none)
    ∧ ∀ x s m e, x < 2 ^ 32 → f32.decode x = .fin s m e → m ≠ 0 →
      let h := f32.decode (x - x % 65536)
      opnd true (f32.decode x) = ⟨f32.decode x, h, bf16.decode (bf16.encode 0 (Machine.Num.add false (f32.decode x) h.neg))⟩

/-- R59, R69 to R71, R91, R92: the values of frcp, frsq and fsqrt, and one step of a matrix sum. -/
def Obligations.FunctionsAndSumsRoundOnce : Prop := Claim.SpecialFunctionsRoundOnce ∧ Claim.SumsRoundOnce
end

