-- ==== Sys2Proof/Laws/Table.lean ====
section
/-! SUPPORT. What the operations on tables, register files and small lists do. -/

namespace Sys2Proof.Machine

/-! ### Tables -/

section
variable {α : Type}

theorem tget_tset_same (t : Tbl α) (k : Nat) (a : α) : tget (tset t k a) k = some a := by
  induction t with
  | nil => simp [tset, tget]
  | cons p r ih =>
    obtain ⟨k', b⟩ := p
    unfold tset
    split
    · simp [tget]
    · split
      · simp [tget]
      · next h => simp [tget, ih, Ne.symm h]

theorem tget_tset_other (t : Tbl α) {k j : Nat} (a : α) (h : j ≠ k) : tget (tset t k a) j = tget t j := by
  induction t with
  | nil => simp [tset, tget, h.symm]
  | cons p r ih =>
    obtain ⟨k', b⟩ := p
    unfold tset
    split
    · simp [tget, h.symm]
    · split
      · next e => subst e; simp [tget, h.symm]
      · simp [tget, ih]

theorem tget_tset (t : Tbl α) (k j : Nat) (a : α) : tget (tset t k a) j = if j = k then some a else tget t j := by
  split
  · next h => subst h; exact tget_tset_same t _ a
  · next h => exact tget_tset_other t a h

theorem tget_tdel_same (t : Tbl α) (k : Nat) : tget (tdel t k) k = none := by
  induction t with
  | nil => rfl
  | cons p r ih =>
    obtain ⟨k', b⟩ := p
    unfold tdel
    split
    · exact ih
    · next h => simp [tget, ih, Ne.symm h]

theorem tget_tdel_other (t : Tbl α) {k j : Nat} (h : j ≠ k) : tget (tdel t k) j = tget t j := by
  induction t with
  | nil => rfl
  | cons p r ih =>
    obtain ⟨k', b⟩ := p
    unfold tdel
    split
    · next e => subst e; simp [tget, h.symm, ih]
    · simp [tget, ih]

theorem tget_tupd (t : Tbl α) (k j : Nat) (f : α → α) :
    tget (tupd t k f) j = if j = k then (tget t k).map f else tget t j := by
  unfold tupd
  cases h : tget t k with
  | none => by_cases e : j = k <;> simp [e, h]
  | some a => simp [tget_tset]

theorem tget_tupd_same (t : Tbl α) (k : Nat) (f : α → α) : tget (tupd t k f) k = (tget t k).map f := by simp [tget_tupd]

theorem tget_tupd_other (t : Tbl α) {k j : Nat} (f : α → α) (h : j ≠ k) : tget (tupd t k f) j = tget t j := by
  simp [tget_tupd, h]

theorem mem_tset {t : Tbl α} {k : Nat} {a : α} {p : Nat × α} (h : p ∈ tset t k a) : p.1 = k ∨ p ∈ t := by
  induction t with
  | nil => simp only [tset, List.mem_singleton] at h; exact .inl (by rw [h])
  | cons c r ih =>
    obtain ⟨k', b⟩ := c
    unfold tset at h
    split at h
    · rcases List.mem_cons.mp h with rfl | h
      · exact .inl rfl
      · exact .inr h
    · split at h
      · rcases List.mem_cons.mp h with rfl | h
        · exact .inl rfl
        · exact .inr (List.mem_cons_of_mem _ h)
      · rcases List.mem_cons.mp h with rfl | h
        · exact .inr (by simp)
        · exact (ih h).imp id (List.mem_cons_of_mem _)

theorem mem_tupd {t : Tbl α} {k : Nat} {f : α → α} {p : Nat × α} (h : p ∈ tupd t k f) : p.1 = k ∨ p ∈ t := by
  unfold tupd at h
  split at h
  · exact mem_tset h
  · exact .inr h

theorem tget_tmap (t : Tbl α) (f : Nat → α → α) (k : Nat) : tget (tmap t f) k = (tget t k).map (f k) := by
  induction t with
  | nil => rfl
  | cons p r ih =>
    obtain ⟨k', b⟩ := p
    simp only [tmap, List.map, tget] at *
    split
    · next e => subst e; rfl
    · exact ih

theorem tgetD_tset_same (t : Tbl α) (k : Nat) (a d : α) : tgetD (tset t k a) k d = a := by simp [tgetD, tget_tset_same]

theorem tgetD_tset_other (t : Tbl α) {k j : Nat} (a d : α) (h : j ≠ k) : tgetD (tset t k a) j d = tgetD t j d := by
  simp [tgetD, tget_tset_other t a h]

theorem tgetD_tset (t : Tbl α) (k j : Nat) (a d : α) : tgetD (tset t k a) j d = if j = k then a else tgetD t j d := by
  split
  · next h => subst h; exact tgetD_tset_same t _ a d
  · next h => exact tgetD_tset_other t a d h

end

/-! ### Register files -/

section
variable {α : Type} {n : Nat}

theorem vget_vset_same (v : Vector α n) {i : Nat} (a d : α) (h : i < n) : vget (vset v i a) i d = a := by
  simp [vget, vset, Vector.setIfInBounds, List.getD_eq_getElem?_getD, h]

theorem vget_vset_other (v : Vector α n) {i j : Nat} (a d : α) (h : j ≠ i) : vget (vset v i a) j d = vget v j d := by
  simp [vget, vset, Vector.setIfInBounds, List.getD_eq_getElem?_getD, List.getElem?_set_ne h.symm]

end

end Sys2Proof.Machine
end

