-- ==== Sys2Proof/Laws/State.lean ====
section
/-! SUPPORT. What each named update of the state changes and leaves: one lemma per field and update. -/

namespace Sys2Proof.Machine

/-! ### updCore -/

@[simp] theorem State.updCore_mem (s : State) (c : Nat) (f : CoreSt → CoreSt) : (s.updCore c f).mem = s.mem := rfl
@[simp] theorem State.updCore_flaws (s : State) (c : Nat) (f : CoreSt → CoreSt) : (s.updCore c f).flaws = s.flaws := rfl
@[simp] theorem State.updCore_clusters (s : State) (c : Nat) (f : CoreSt → CoreSt) : (s.updCore c f).clusters = s.clusters := rfl
@[simp] theorem State.updCore_ctxs (s : State) (c : Nat) (f : CoreSt → CoreSt) : (s.updCore c f).ctxs = s.ctxs := rfl
@[simp] theorem State.updCore_threads (s : State) (c : Nat) (f : CoreSt → CoreSt) : (s.updCore c f).threads = s.threads := rfl
@[simp] theorem State.updCore_groups (s : State) (c : Nat) (f : CoreSt → CoreSt) : (s.updCore c f).groups = s.groups := rfl
@[simp] theorem State.updCore_teams (s : State) (c : Nat) (f : CoreSt → CoreSt) : (s.updCore c f).teams = s.teams := rfl
@[simp] theorem State.updCore_cards (s : State) (c : Nat) (f : CoreSt → CoreSt) : (s.updCore c f).cards = s.cards := rfl
@[simp] theorem State.updCore_ops (s : State) (c : Nat) (f : CoreSt → CoreSt) : (s.updCore c f).ops = s.ops := rfl
@[simp] theorem State.updCore_posts (s : State) (c : Nat) (f : CoreSt → CoreSt) : (s.updCore c f).posts = s.posts := rfl
@[simp] theorem State.updCore_streams (s : State) (c : Nat) (f : CoreSt → CoreSt) : (s.updCore c f).streams = s.streams := rfl
@[simp] theorem State.updCore_hostqs (s : State) (c : Nat) (f : CoreSt → CoreSt) : (s.updCore c f).hostqs = s.hostqs := rfl
@[simp] theorem State.updCore_ctl (s : State) (c : Nat) (f : CoreSt → CoreSt) : (s.updCore c f).ctl = s.ctl := rfl
@[simp] theorem State.updCore_journal (s : State) (c : Nat) (f : CoreSt → CoreSt) : (s.updCore c f).journal = s.journal := rfl
@[simp] theorem State.updCore_time (s : State) (c : Nat) (f : CoreSt → CoreSt) : (s.updCore c f).time = s.time := rfl
@[simp] theorem State.updCore_series (s : State) (c : Nat) (f : CoreSt → CoreSt) : (s.updCore c f).series = s.series := rfl
@[simp] theorem State.updCore_package (s : State) (c : Nat) (f : CoreSt → CoreSt) : (s.updCore c f).package = s.package := rfl
@[simp] theorem State.updCore_fabric (s : State) (c : Nat) (f : CoreSt → CoreSt) : (s.updCore c f).fabric = s.fabric := rfl
@[simp] theorem State.updCore_agenda (s : State) (c : Nat) (f : CoreSt → CoreSt) : (s.updCore c f).agenda = s.agenda := rfl
@[simp] theorem State.updCore_todo (s : State) (c : Nat) (f : CoreSt → CoreSt) : (s.updCore c f).todo = s.todo := rfl
@[simp] theorem State.updCore_clk (s : State) (c : Nat) (f : CoreSt → CoreSt) : (s.updCore c f).clk = s.clk := rfl
@[simp] theorem State.updCore_issuing (s : State) (c : Nat) (f : CoreSt → CoreSt) : (s.updCore c f).issuing = s.issuing := rfl
@[simp] theorem State.updCore_stalled (s : State) (c : Nat) (f : CoreSt → CoreSt) : (s.updCore c f).stalled = s.stalled := rfl
@[simp] theorem State.updCore_scored (s : State) (c : Nat) (f : CoreSt → CoreSt) : (s.updCore c f).scored = s.scored := rfl
@[simp] theorem State.updCore_fresh (s : State) (c : Nat) (f : CoreSt → CoreSt) : (s.updCore c f).fresh = s.fresh := rfl
@[simp] theorem State.updCore_freeCtr (s : State) (c : Nat) (f : CoreSt → CoreSt) : (s.updCore c f).freeCtr = s.freeCtr := rfl

/-! ### updCluster -/

@[simp] theorem State.updCluster_mem (s : State) (c : Nat) (f : ClusterSt → ClusterSt) : (s.updCluster c f).mem = s.mem := rfl
@[simp] theorem State.updCluster_flaws (s : State) (c : Nat) (f : ClusterSt → ClusterSt) : (s.updCluster c f).flaws = s.flaws := rfl
@[simp] theorem State.updCluster_cores (s : State) (c : Nat) (f : ClusterSt → ClusterSt) : (s.updCluster c f).cores = s.cores := rfl
@[simp] theorem State.updCluster_ctxs (s : State) (c : Nat) (f : ClusterSt → ClusterSt) : (s.updCluster c f).ctxs = s.ctxs := rfl
@[simp] theorem State.updCluster_threads (s : State) (c : Nat) (f : ClusterSt → ClusterSt) : (s.updCluster c f).threads = s.threads := rfl
@[simp] theorem State.updCluster_groups (s : State) (c : Nat) (f : ClusterSt → ClusterSt) : (s.updCluster c f).groups = s.groups := rfl
@[simp] theorem State.updCluster_teams (s : State) (c : Nat) (f : ClusterSt → ClusterSt) : (s.updCluster c f).teams = s.teams := rfl
@[simp] theorem State.updCluster_cards (s : State) (c : Nat) (f : ClusterSt → ClusterSt) : (s.updCluster c f).cards = s.cards := rfl
@[simp] theorem State.updCluster_ops (s : State) (c : Nat) (f : ClusterSt → ClusterSt) : (s.updCluster c f).ops = s.ops := rfl
@[simp] theorem State.updCluster_posts (s : State) (c : Nat) (f : ClusterSt → ClusterSt) : (s.updCluster c f).posts = s.posts := rfl
@[simp] theorem State.updCluster_streams (s : State) (c : Nat) (f : ClusterSt → ClusterSt) : (s.updCluster c f).streams = s.streams := rfl
@[simp] theorem State.updCluster_hostqs (s : State) (c : Nat) (f : ClusterSt → ClusterSt) : (s.updCluster c f).hostqs = s.hostqs := rfl
@[simp] theorem State.updCluster_ctl (s : State) (c : Nat) (f : ClusterSt → ClusterSt) : (s.updCluster c f).ctl = s.ctl := rfl
@[simp] theorem State.updCluster_journal (s : State) (c : Nat) (f : ClusterSt → ClusterSt) : (s.updCluster c f).journal = s.journal := rfl
@[simp] theorem State.updCluster_time (s : State) (c : Nat) (f : ClusterSt → ClusterSt) : (s.updCluster c f).time = s.time := rfl
@[simp] theorem State.updCluster_series (s : State) (c : Nat) (f : ClusterSt → ClusterSt) : (s.updCluster c f).series = s.series := rfl
@[simp] theorem State.updCluster_package (s : State) (c : Nat) (f : ClusterSt → ClusterSt) : (s.updCluster c f).package = s.package := rfl
@[simp] theorem State.updCluster_fabric (s : State) (c : Nat) (f : ClusterSt → ClusterSt) : (s.updCluster c f).fabric = s.fabric := rfl
@[simp] theorem State.updCluster_agenda (s : State) (c : Nat) (f : ClusterSt → ClusterSt) : (s.updCluster c f).agenda = s.agenda := rfl
@[simp] theorem State.updCluster_todo (s : State) (c : Nat) (f : ClusterSt → ClusterSt) : (s.updCluster c f).todo = s.todo := rfl
@[simp] theorem State.updCluster_clk (s : State) (c : Nat) (f : ClusterSt → ClusterSt) : (s.updCluster c f).clk = s.clk := rfl
@[simp] theorem State.updCluster_issuing (s : State) (c : Nat) (f : ClusterSt → ClusterSt) : (s.updCluster c f).issuing = s.issuing := rfl
@[simp] theorem State.updCluster_stalled (s : State) (c : Nat) (f : ClusterSt → ClusterSt) : (s.updCluster c f).stalled = s.stalled := rfl
@[simp] theorem State.updCluster_scored (s : State) (c : Nat) (f : ClusterSt → ClusterSt) : (s.updCluster c f).scored = s.scored := rfl
@[simp] theorem State.updCluster_fresh (s : State) (c : Nat) (f : ClusterSt → ClusterSt) : (s.updCluster c f).fresh = s.fresh := rfl
@[simp] theorem State.updCluster_freeCtr (s : State) (c : Nat) (f : ClusterSt → ClusterSt) : (s.updCluster c f).freeCtr = s.freeCtr := rfl

/-! ### updCtx -/

@[simp] theorem State.updCtx_mem (s : State) (c : Nat) (f : CtxSt → CtxSt) : (s.updCtx c f).mem = s.mem := rfl
@[simp] theorem State.updCtx_flaws (s : State) (c : Nat) (f : CtxSt → CtxSt) : (s.updCtx c f).flaws = s.flaws := rfl
@[simp] theorem State.updCtx_clusters (s : State) (c : Nat) (f : CtxSt → CtxSt) : (s.updCtx c f).clusters = s.clusters := rfl
@[simp] theorem State.updCtx_cores (s : State) (c : Nat) (f : CtxSt → CtxSt) : (s.updCtx c f).cores = s.cores := rfl
@[simp] theorem State.updCtx_threads (s : State) (c : Nat) (f : CtxSt → CtxSt) : (s.updCtx c f).threads = s.threads := rfl
@[simp] theorem State.updCtx_groups (s : State) (c : Nat) (f : CtxSt → CtxSt) : (s.updCtx c f).groups = s.groups := rfl
@[simp] theorem State.updCtx_teams (s : State) (c : Nat) (f : CtxSt → CtxSt) : (s.updCtx c f).teams = s.teams := rfl
@[simp] theorem State.updCtx_cards (s : State) (c : Nat) (f : CtxSt → CtxSt) : (s.updCtx c f).cards = s.cards := rfl
@[simp] theorem State.updCtx_ops (s : State) (c : Nat) (f : CtxSt → CtxSt) : (s.updCtx c f).ops = s.ops := rfl
@[simp] theorem State.updCtx_posts (s : State) (c : Nat) (f : CtxSt → CtxSt) : (s.updCtx c f).posts = s.posts := rfl
@[simp] theorem State.updCtx_streams (s : State) (c : Nat) (f : CtxSt → CtxSt) : (s.updCtx c f).streams = s.streams := rfl
@[simp] theorem State.updCtx_hostqs (s : State) (c : Nat) (f : CtxSt → CtxSt) : (s.updCtx c f).hostqs = s.hostqs := rfl
@[simp] theorem State.updCtx_ctl (s : State) (c : Nat) (f : CtxSt → CtxSt) : (s.updCtx c f).ctl = s.ctl := rfl
@[simp] theorem State.updCtx_journal (s : State) (c : Nat) (f : CtxSt → CtxSt) : (s.updCtx c f).journal = s.journal := rfl
@[simp] theorem State.updCtx_time (s : State) (c : Nat) (f : CtxSt → CtxSt) : (s.updCtx c f).time = s.time := rfl
@[simp] theorem State.updCtx_series (s : State) (c : Nat) (f : CtxSt → CtxSt) : (s.updCtx c f).series = s.series := rfl
@[simp] theorem State.updCtx_package (s : State) (c : Nat) (f : CtxSt → CtxSt) : (s.updCtx c f).package = s.package := rfl
@[simp] theorem State.updCtx_fabric (s : State) (c : Nat) (f : CtxSt → CtxSt) : (s.updCtx c f).fabric = s.fabric := rfl
@[simp] theorem State.updCtx_agenda (s : State) (c : Nat) (f : CtxSt → CtxSt) : (s.updCtx c f).agenda = s.agenda := rfl
@[simp] theorem State.updCtx_todo (s : State) (c : Nat) (f : CtxSt → CtxSt) : (s.updCtx c f).todo = s.todo := rfl
@[simp] theorem State.updCtx_clk (s : State) (c : Nat) (f : CtxSt → CtxSt) : (s.updCtx c f).clk = s.clk := rfl
@[simp] theorem State.updCtx_issuing (s : State) (c : Nat) (f : CtxSt → CtxSt) : (s.updCtx c f).issuing = s.issuing := rfl
@[simp] theorem State.updCtx_stalled (s : State) (c : Nat) (f : CtxSt → CtxSt) : (s.updCtx c f).stalled = s.stalled := rfl
@[simp] theorem State.updCtx_scored (s : State) (c : Nat) (f : CtxSt → CtxSt) : (s.updCtx c f).scored = s.scored := rfl
@[simp] theorem State.updCtx_fresh (s : State) (c : Nat) (f : CtxSt → CtxSt) : (s.updCtx c f).fresh = s.fresh := rfl
@[simp] theorem State.updCtx_freeCtr (s : State) (c : Nat) (f : CtxSt → CtxSt) : (s.updCtx c f).freeCtr = s.freeCtr := rfl

/-! ### updChain -/

@[simp] theorem State.updChain_mem (s : State) (c ch : Nat) (f : Chain → Chain) : (s.updChain c ch f).mem = s.mem := rfl
@[simp] theorem State.updChain_flaws (s : State) (c ch : Nat) (f : Chain → Chain) : (s.updChain c ch f).flaws = s.flaws := rfl
@[simp] theorem State.updChain_clusters (s : State) (c ch : Nat) (f : Chain → Chain) : (s.updChain c ch f).clusters = s.clusters := rfl
@[simp] theorem State.updChain_cores (s : State) (c ch : Nat) (f : Chain → Chain) : (s.updChain c ch f).cores = s.cores := rfl
@[simp] theorem State.updChain_threads (s : State) (c ch : Nat) (f : Chain → Chain) : (s.updChain c ch f).threads = s.threads := rfl
@[simp] theorem State.updChain_groups (s : State) (c ch : Nat) (f : Chain → Chain) : (s.updChain c ch f).groups = s.groups := rfl
@[simp] theorem State.updChain_teams (s : State) (c ch : Nat) (f : Chain → Chain) : (s.updChain c ch f).teams = s.teams := rfl
@[simp] theorem State.updChain_cards (s : State) (c ch : Nat) (f : Chain → Chain) : (s.updChain c ch f).cards = s.cards := rfl
@[simp] theorem State.updChain_ops (s : State) (c ch : Nat) (f : Chain → Chain) : (s.updChain c ch f).ops = s.ops := rfl
@[simp] theorem State.updChain_posts (s : State) (c ch : Nat) (f : Chain → Chain) : (s.updChain c ch f).posts = s.posts := rfl
@[simp] theorem State.updChain_streams (s : State) (c ch : Nat) (f : Chain → Chain) : (s.updChain c ch f).streams = s.streams := rfl
@[simp] theorem State.updChain_hostqs (s : State) (c ch : Nat) (f : Chain → Chain) : (s.updChain c ch f).hostqs = s.hostqs := rfl
@[simp] theorem State.updChain_ctl (s : State) (c ch : Nat) (f : Chain → Chain) : (s.updChain c ch f).ctl = s.ctl := rfl
@[simp] theorem State.updChain_journal (s : State) (c ch : Nat) (f : Chain → Chain) : (s.updChain c ch f).journal = s.journal := rfl
@[simp] theorem State.updChain_time (s : State) (c ch : Nat) (f : Chain → Chain) : (s.updChain c ch f).time = s.time := rfl
@[simp] theorem State.updChain_series (s : State) (c ch : Nat) (f : Chain → Chain) : (s.updChain c ch f).series = s.series := rfl
@[simp] theorem State.updChain_package (s : State) (c ch : Nat) (f : Chain → Chain) : (s.updChain c ch f).package = s.package := rfl
@[simp] theorem State.updChain_fabric (s : State) (c ch : Nat) (f : Chain → Chain) : (s.updChain c ch f).fabric = s.fabric := rfl
@[simp] theorem State.updChain_agenda (s : State) (c ch : Nat) (f : Chain → Chain) : (s.updChain c ch f).agenda = s.agenda := rfl
@[simp] theorem State.updChain_todo (s : State) (c ch : Nat) (f : Chain → Chain) : (s.updChain c ch f).todo = s.todo := rfl
@[simp] theorem State.updChain_clk (s : State) (c ch : Nat) (f : Chain → Chain) : (s.updChain c ch f).clk = s.clk := rfl
@[simp] theorem State.updChain_issuing (s : State) (c ch : Nat) (f : Chain → Chain) : (s.updChain c ch f).issuing = s.issuing := rfl
@[simp] theorem State.updChain_stalled (s : State) (c ch : Nat) (f : Chain → Chain) : (s.updChain c ch f).stalled = s.stalled := rfl
@[simp] theorem State.updChain_scored (s : State) (c ch : Nat) (f : Chain → Chain) : (s.updChain c ch f).scored = s.scored := rfl
@[simp] theorem State.updChain_fresh (s : State) (c ch : Nat) (f : Chain → Chain) : (s.updChain c ch f).fresh = s.fresh := rfl
@[simp] theorem State.updChain_freeCtr (s : State) (c ch : Nat) (f : Chain → Chain) : (s.updChain c ch f).freeCtr = s.freeCtr := rfl

/-! ### updStream -/

@[simp] theorem State.updStream_mem (s : State) (n : Nat) (f : Stream → Stream) : (s.updStream n f).mem = s.mem := rfl
@[simp] theorem State.updStream_flaws (s : State) (n : Nat) (f : Stream → Stream) : (s.updStream n f).flaws = s.flaws := rfl
@[simp] theorem State.updStream_clusters (s : State) (n : Nat) (f : Stream → Stream) : (s.updStream n f).clusters = s.clusters := rfl
@[simp] theorem State.updStream_cores (s : State) (n : Nat) (f : Stream → Stream) : (s.updStream n f).cores = s.cores := rfl
@[simp] theorem State.updStream_ctxs (s : State) (n : Nat) (f : Stream → Stream) : (s.updStream n f).ctxs = s.ctxs := rfl
@[simp] theorem State.updStream_threads (s : State) (n : Nat) (f : Stream → Stream) : (s.updStream n f).threads = s.threads := rfl
@[simp] theorem State.updStream_groups (s : State) (n : Nat) (f : Stream → Stream) : (s.updStream n f).groups = s.groups := rfl
@[simp] theorem State.updStream_teams (s : State) (n : Nat) (f : Stream → Stream) : (s.updStream n f).teams = s.teams := rfl
@[simp] theorem State.updStream_cards (s : State) (n : Nat) (f : Stream → Stream) : (s.updStream n f).cards = s.cards := rfl
@[simp] theorem State.updStream_ops (s : State) (n : Nat) (f : Stream → Stream) : (s.updStream n f).ops = s.ops := rfl
@[simp] theorem State.updStream_posts (s : State) (n : Nat) (f : Stream → Stream) : (s.updStream n f).posts = s.posts := rfl
@[simp] theorem State.updStream_hostqs (s : State) (n : Nat) (f : Stream → Stream) : (s.updStream n f).hostqs = s.hostqs := rfl
@[simp] theorem State.updStream_ctl (s : State) (n : Nat) (f : Stream → Stream) : (s.updStream n f).ctl = s.ctl := rfl
@[simp] theorem State.updStream_journal (s : State) (n : Nat) (f : Stream → Stream) : (s.updStream n f).journal = s.journal := rfl
@[simp] theorem State.updStream_time (s : State) (n : Nat) (f : Stream → Stream) : (s.updStream n f).time = s.time := rfl
@[simp] theorem State.updStream_series (s : State) (n : Nat) (f : Stream → Stream) : (s.updStream n f).series = s.series := rfl
@[simp] theorem State.updStream_package (s : State) (n : Nat) (f : Stream → Stream) : (s.updStream n f).package = s.package := rfl
@[simp] theorem State.updStream_fabric (s : State) (n : Nat) (f : Stream → Stream) : (s.updStream n f).fabric = s.fabric := rfl
@[simp] theorem State.updStream_agenda (s : State) (n : Nat) (f : Stream → Stream) : (s.updStream n f).agenda = s.agenda := rfl
@[simp] theorem State.updStream_todo (s : State) (n : Nat) (f : Stream → Stream) : (s.updStream n f).todo = s.todo := rfl
@[simp] theorem State.updStream_clk (s : State) (n : Nat) (f : Stream → Stream) : (s.updStream n f).clk = s.clk := rfl
@[simp] theorem State.updStream_issuing (s : State) (n : Nat) (f : Stream → Stream) : (s.updStream n f).issuing = s.issuing := rfl
@[simp] theorem State.updStream_stalled (s : State) (n : Nat) (f : Stream → Stream) : (s.updStream n f).stalled = s.stalled := rfl
@[simp] theorem State.updStream_scored (s : State) (n : Nat) (f : Stream → Stream) : (s.updStream n f).scored = s.scored := rfl
@[simp] theorem State.updStream_fresh (s : State) (n : Nat) (f : Stream → Stream) : (s.updStream n f).fresh = s.fresh := rfl
@[simp] theorem State.updStream_freeCtr (s : State) (n : Nat) (f : Stream → Stream) : (s.updStream n f).freeCtr = s.freeCtr := rfl

/-! ### updHostq -/

@[simp] theorem State.updHostq_mem (s : State) (n : Nat) (f : HostQ → HostQ) : (s.updHostq n f).mem = s.mem := rfl
@[simp] theorem State.updHostq_flaws (s : State) (n : Nat) (f : HostQ → HostQ) : (s.updHostq n f).flaws = s.flaws := rfl
@[simp] theorem State.updHostq_clusters (s : State) (n : Nat) (f : HostQ → HostQ) : (s.updHostq n f).clusters = s.clusters := rfl
@[simp] theorem State.updHostq_cores (s : State) (n : Nat) (f : HostQ → HostQ) : (s.updHostq n f).cores = s.cores := rfl
@[simp] theorem State.updHostq_ctxs (s : State) (n : Nat) (f : HostQ → HostQ) : (s.updHostq n f).ctxs = s.ctxs := rfl
@[simp] theorem State.updHostq_threads (s : State) (n : Nat) (f : HostQ → HostQ) : (s.updHostq n f).threads = s.threads := rfl
@[simp] theorem State.updHostq_groups (s : State) (n : Nat) (f : HostQ → HostQ) : (s.updHostq n f).groups = s.groups := rfl
@[simp] theorem State.updHostq_teams (s : State) (n : Nat) (f : HostQ → HostQ) : (s.updHostq n f).teams = s.teams := rfl
@[simp] theorem State.updHostq_cards (s : State) (n : Nat) (f : HostQ → HostQ) : (s.updHostq n f).cards = s.cards := rfl
@[simp] theorem State.updHostq_ops (s : State) (n : Nat) (f : HostQ → HostQ) : (s.updHostq n f).ops = s.ops := rfl
@[simp] theorem State.updHostq_posts (s : State) (n : Nat) (f : HostQ → HostQ) : (s.updHostq n f).posts = s.posts := rfl
@[simp] theorem State.updHostq_streams (s : State) (n : Nat) (f : HostQ → HostQ) : (s.updHostq n f).streams = s.streams := rfl
@[simp] theorem State.updHostq_ctl (s : State) (n : Nat) (f : HostQ → HostQ) : (s.updHostq n f).ctl = s.ctl := rfl
@[simp] theorem State.updHostq_journal (s : State) (n : Nat) (f : HostQ → HostQ) : (s.updHostq n f).journal = s.journal := rfl
@[simp] theorem State.updHostq_time (s : State) (n : Nat) (f : HostQ → HostQ) : (s.updHostq n f).time = s.time := rfl
@[simp] theorem State.updHostq_series (s : State) (n : Nat) (f : HostQ → HostQ) : (s.updHostq n f).series = s.series := rfl
@[simp] theorem State.updHostq_package (s : State) (n : Nat) (f : HostQ → HostQ) : (s.updHostq n f).package = s.package := rfl
@[simp] theorem State.updHostq_fabric (s : State) (n : Nat) (f : HostQ → HostQ) : (s.updHostq n f).fabric = s.fabric := rfl
@[simp] theorem State.updHostq_agenda (s : State) (n : Nat) (f : HostQ → HostQ) : (s.updHostq n f).agenda = s.agenda := rfl
@[simp] theorem State.updHostq_todo (s : State) (n : Nat) (f : HostQ → HostQ) : (s.updHostq n f).todo = s.todo := rfl
@[simp] theorem State.updHostq_clk (s : State) (n : Nat) (f : HostQ → HostQ) : (s.updHostq n f).clk = s.clk := rfl
@[simp] theorem State.updHostq_issuing (s : State) (n : Nat) (f : HostQ → HostQ) : (s.updHostq n f).issuing = s.issuing := rfl
@[simp] theorem State.updHostq_stalled (s : State) (n : Nat) (f : HostQ → HostQ) : (s.updHostq n f).stalled = s.stalled := rfl
@[simp] theorem State.updHostq_scored (s : State) (n : Nat) (f : HostQ → HostQ) : (s.updHostq n f).scored = s.scored := rfl
@[simp] theorem State.updHostq_fresh (s : State) (n : Nat) (f : HostQ → HostQ) : (s.updHostq n f).fresh = s.fresh := rfl
@[simp] theorem State.updHostq_freeCtr (s : State) (n : Nat) (f : HostQ → HostQ) : (s.updHostq n f).freeCtr = s.freeCtr := rfl

/-! ### updCtl -/

@[simp] theorem State.updCtl_mem (s : State) (n : Nat) (f : CtlCore → CtlCore) : (s.updCtl n f).mem = s.mem := rfl
@[simp] theorem State.updCtl_flaws (s : State) (n : Nat) (f : CtlCore → CtlCore) : (s.updCtl n f).flaws = s.flaws := rfl
@[simp] theorem State.updCtl_clusters (s : State) (n : Nat) (f : CtlCore → CtlCore) : (s.updCtl n f).clusters = s.clusters := rfl
@[simp] theorem State.updCtl_cores (s : State) (n : Nat) (f : CtlCore → CtlCore) : (s.updCtl n f).cores = s.cores := rfl
@[simp] theorem State.updCtl_ctxs (s : State) (n : Nat) (f : CtlCore → CtlCore) : (s.updCtl n f).ctxs = s.ctxs := rfl
@[simp] theorem State.updCtl_threads (s : State) (n : Nat) (f : CtlCore → CtlCore) : (s.updCtl n f).threads = s.threads := rfl
@[simp] theorem State.updCtl_groups (s : State) (n : Nat) (f : CtlCore → CtlCore) : (s.updCtl n f).groups = s.groups := rfl
@[simp] theorem State.updCtl_teams (s : State) (n : Nat) (f : CtlCore → CtlCore) : (s.updCtl n f).teams = s.teams := rfl
@[simp] theorem State.updCtl_cards (s : State) (n : Nat) (f : CtlCore → CtlCore) : (s.updCtl n f).cards = s.cards := rfl
@[simp] theorem State.updCtl_ops (s : State) (n : Nat) (f : CtlCore → CtlCore) : (s.updCtl n f).ops = s.ops := rfl
@[simp] theorem State.updCtl_posts (s : State) (n : Nat) (f : CtlCore → CtlCore) : (s.updCtl n f).posts = s.posts := rfl
@[simp] theorem State.updCtl_streams (s : State) (n : Nat) (f : CtlCore → CtlCore) : (s.updCtl n f).streams = s.streams := rfl
@[simp] theorem State.updCtl_hostqs (s : State) (n : Nat) (f : CtlCore → CtlCore) : (s.updCtl n f).hostqs = s.hostqs := rfl
@[simp] theorem State.updCtl_journal (s : State) (n : Nat) (f : CtlCore → CtlCore) : (s.updCtl n f).journal = s.journal := rfl
@[simp] theorem State.updCtl_time (s : State) (n : Nat) (f : CtlCore → CtlCore) : (s.updCtl n f).time = s.time := rfl
@[simp] theorem State.updCtl_series (s : State) (n : Nat) (f : CtlCore → CtlCore) : (s.updCtl n f).series = s.series := rfl
@[simp] theorem State.updCtl_package (s : State) (n : Nat) (f : CtlCore → CtlCore) : (s.updCtl n f).package = s.package := rfl
@[simp] theorem State.updCtl_fabric (s : State) (n : Nat) (f : CtlCore → CtlCore) : (s.updCtl n f).fabric = s.fabric := rfl
@[simp] theorem State.updCtl_agenda (s : State) (n : Nat) (f : CtlCore → CtlCore) : (s.updCtl n f).agenda = s.agenda := rfl
@[simp] theorem State.updCtl_todo (s : State) (n : Nat) (f : CtlCore → CtlCore) : (s.updCtl n f).todo = s.todo := rfl
@[simp] theorem State.updCtl_clk (s : State) (n : Nat) (f : CtlCore → CtlCore) : (s.updCtl n f).clk = s.clk := rfl
@[simp] theorem State.updCtl_issuing (s : State) (n : Nat) (f : CtlCore → CtlCore) : (s.updCtl n f).issuing = s.issuing := rfl
@[simp] theorem State.updCtl_stalled (s : State) (n : Nat) (f : CtlCore → CtlCore) : (s.updCtl n f).stalled = s.stalled := rfl
@[simp] theorem State.updCtl_scored (s : State) (n : Nat) (f : CtlCore → CtlCore) : (s.updCtl n f).scored = s.scored := rfl
@[simp] theorem State.updCtl_fresh (s : State) (n : Nat) (f : CtlCore → CtlCore) : (s.updCtl n f).fresh = s.fresh := rfl
@[simp] theorem State.updCtl_freeCtr (s : State) (n : Nat) (f : CtlCore → CtlCore) : (s.updCtl n f).freeCtr = s.freeCtr := rfl

/-! ### updThread -/

@[simp] theorem State.updThread_mem (s : State) (i : Nat) (f : Thread → Thread) : (s.updThread i f).mem = s.mem := rfl
@[simp] theorem State.updThread_flaws (s : State) (i : Nat) (f : Thread → Thread) : (s.updThread i f).flaws = s.flaws := rfl
@[simp] theorem State.updThread_clusters (s : State) (i : Nat) (f : Thread → Thread) : (s.updThread i f).clusters = s.clusters := rfl
@[simp] theorem State.updThread_cores (s : State) (i : Nat) (f : Thread → Thread) : (s.updThread i f).cores = s.cores := rfl
@[simp] theorem State.updThread_ctxs (s : State) (i : Nat) (f : Thread → Thread) : (s.updThread i f).ctxs = s.ctxs := rfl
@[simp] theorem State.updThread_groups (s : State) (i : Nat) (f : Thread → Thread) : (s.updThread i f).groups = s.groups := rfl
@[simp] theorem State.updThread_teams (s : State) (i : Nat) (f : Thread → Thread) : (s.updThread i f).teams = s.teams := rfl
@[simp] theorem State.updThread_cards (s : State) (i : Nat) (f : Thread → Thread) : (s.updThread i f).cards = s.cards := rfl
@[simp] theorem State.updThread_ops (s : State) (i : Nat) (f : Thread → Thread) : (s.updThread i f).ops = s.ops := rfl
@[simp] theorem State.updThread_posts (s : State) (i : Nat) (f : Thread → Thread) : (s.updThread i f).posts = s.posts := rfl
@[simp] theorem State.updThread_streams (s : State) (i : Nat) (f : Thread → Thread) : (s.updThread i f).streams = s.streams := rfl
@[simp] theorem State.updThread_hostqs (s : State) (i : Nat) (f : Thread → Thread) : (s.updThread i f).hostqs = s.hostqs := rfl
@[simp] theorem State.updThread_ctl (s : State) (i : Nat) (f : Thread → Thread) : (s.updThread i f).ctl = s.ctl := rfl
@[simp] theorem State.updThread_journal (s : State) (i : Nat) (f : Thread → Thread) : (s.updThread i f).journal = s.journal := rfl
@[simp] theorem State.updThread_time (s : State) (i : Nat) (f : Thread → Thread) : (s.updThread i f).time = s.time := rfl
@[simp] theorem State.updThread_series (s : State) (i : Nat) (f : Thread → Thread) : (s.updThread i f).series = s.series := rfl
@[simp] theorem State.updThread_package (s : State) (i : Nat) (f : Thread → Thread) : (s.updThread i f).package = s.package := rfl
@[simp] theorem State.updThread_fabric (s : State) (i : Nat) (f : Thread → Thread) : (s.updThread i f).fabric = s.fabric := rfl
@[simp] theorem State.updThread_agenda (s : State) (i : Nat) (f : Thread → Thread) : (s.updThread i f).agenda = s.agenda := rfl
@[simp] theorem State.updThread_todo (s : State) (i : Nat) (f : Thread → Thread) : (s.updThread i f).todo = s.todo := rfl
@[simp] theorem State.updThread_clk (s : State) (i : Nat) (f : Thread → Thread) : (s.updThread i f).clk = s.clk := rfl
@[simp] theorem State.updThread_issuing (s : State) (i : Nat) (f : Thread → Thread) : (s.updThread i f).issuing = s.issuing := rfl
@[simp] theorem State.updThread_stalled (s : State) (i : Nat) (f : Thread → Thread) : (s.updThread i f).stalled = s.stalled := rfl
@[simp] theorem State.updThread_scored (s : State) (i : Nat) (f : Thread → Thread) : (s.updThread i f).scored = s.scored := rfl
@[simp] theorem State.updThread_fresh (s : State) (i : Nat) (f : Thread → Thread) : (s.updThread i f).fresh = s.fresh := rfl
@[simp] theorem State.updThread_freeCtr (s : State) (i : Nat) (f : Thread → Thread) : (s.updThread i f).freeCtr = s.freeCtr := rfl

/-! ### updTeam -/

@[simp] theorem State.updTeam_mem (s : State) (i : Nat) (f : Team → Team) : (s.updTeam i f).mem = s.mem := rfl
@[simp] theorem State.updTeam_flaws (s : State) (i : Nat) (f : Team → Team) : (s.updTeam i f).flaws = s.flaws := rfl
@[simp] theorem State.updTeam_clusters (s : State) (i : Nat) (f : Team → Team) : (s.updTeam i f).clusters = s.clusters := rfl
@[simp] theorem State.updTeam_cores (s : State) (i : Nat) (f : Team → Team) : (s.updTeam i f).cores = s.cores := rfl
@[simp] theorem State.updTeam_ctxs (s : State) (i : Nat) (f : Team → Team) : (s.updTeam i f).ctxs = s.ctxs := rfl
@[simp] theorem State.updTeam_threads (s : State) (i : Nat) (f : Team → Team) : (s.updTeam i f).threads = s.threads := rfl
@[simp] theorem State.updTeam_groups (s : State) (i : Nat) (f : Team → Team) : (s.updTeam i f).groups = s.groups := rfl
@[simp] theorem State.updTeam_cards (s : State) (i : Nat) (f : Team → Team) : (s.updTeam i f).cards = s.cards := rfl
@[simp] theorem State.updTeam_ops (s : State) (i : Nat) (f : Team → Team) : (s.updTeam i f).ops = s.ops := rfl
@[simp] theorem State.updTeam_posts (s : State) (i : Nat) (f : Team → Team) : (s.updTeam i f).posts = s.posts := rfl
@[simp] theorem State.updTeam_streams (s : State) (i : Nat) (f : Team → Team) : (s.updTeam i f).streams = s.streams := rfl
@[simp] theorem State.updTeam_hostqs (s : State) (i : Nat) (f : Team → Team) : (s.updTeam i f).hostqs = s.hostqs := rfl
@[simp] theorem State.updTeam_ctl (s : State) (i : Nat) (f : Team → Team) : (s.updTeam i f).ctl = s.ctl := rfl
@[simp] theorem State.updTeam_journal (s : State) (i : Nat) (f : Team → Team) : (s.updTeam i f).journal = s.journal := rfl
@[simp] theorem State.updTeam_time (s : State) (i : Nat) (f : Team → Team) : (s.updTeam i f).time = s.time := rfl
@[simp] theorem State.updTeam_series (s : State) (i : Nat) (f : Team → Team) : (s.updTeam i f).series = s.series := rfl
@[simp] theorem State.updTeam_package (s : State) (i : Nat) (f : Team → Team) : (s.updTeam i f).package = s.package := rfl
@[simp] theorem State.updTeam_fabric (s : State) (i : Nat) (f : Team → Team) : (s.updTeam i f).fabric = s.fabric := rfl
@[simp] theorem State.updTeam_agenda (s : State) (i : Nat) (f : Team → Team) : (s.updTeam i f).agenda = s.agenda := rfl
@[simp] theorem State.updTeam_todo (s : State) (i : Nat) (f : Team → Team) : (s.updTeam i f).todo = s.todo := rfl
@[simp] theorem State.updTeam_clk (s : State) (i : Nat) (f : Team → Team) : (s.updTeam i f).clk = s.clk := rfl
@[simp] theorem State.updTeam_issuing (s : State) (i : Nat) (f : Team → Team) : (s.updTeam i f).issuing = s.issuing := rfl
@[simp] theorem State.updTeam_stalled (s : State) (i : Nat) (f : Team → Team) : (s.updTeam i f).stalled = s.stalled := rfl
@[simp] theorem State.updTeam_scored (s : State) (i : Nat) (f : Team → Team) : (s.updTeam i f).scored = s.scored := rfl
@[simp] theorem State.updTeam_fresh (s : State) (i : Nat) (f : Team → Team) : (s.updTeam i f).fresh = s.fresh := rfl
@[simp] theorem State.updTeam_freeCtr (s : State) (i : Nat) (f : Team → Team) : (s.updTeam i f).freeCtr = s.freeCtr := rfl

/-! ### updCard -/

@[simp] theorem State.updCard_mem (s : State) (i : Nat) (f : Card → Card) : (s.updCard i f).mem = s.mem := rfl
@[simp] theorem State.updCard_flaws (s : State) (i : Nat) (f : Card → Card) : (s.updCard i f).flaws = s.flaws := rfl
@[simp] theorem State.updCard_clusters (s : State) (i : Nat) (f : Card → Card) : (s.updCard i f).clusters = s.clusters := rfl
@[simp] theorem State.updCard_cores (s : State) (i : Nat) (f : Card → Card) : (s.updCard i f).cores = s.cores := rfl
@[simp] theorem State.updCard_ctxs (s : State) (i : Nat) (f : Card → Card) : (s.updCard i f).ctxs = s.ctxs := rfl
@[simp] theorem State.updCard_threads (s : State) (i : Nat) (f : Card → Card) : (s.updCard i f).threads = s.threads := rfl
@[simp] theorem State.updCard_groups (s : State) (i : Nat) (f : Card → Card) : (s.updCard i f).groups = s.groups := rfl
@[simp] theorem State.updCard_teams (s : State) (i : Nat) (f : Card → Card) : (s.updCard i f).teams = s.teams := rfl
@[simp] theorem State.updCard_ops (s : State) (i : Nat) (f : Card → Card) : (s.updCard i f).ops = s.ops := rfl
@[simp] theorem State.updCard_posts (s : State) (i : Nat) (f : Card → Card) : (s.updCard i f).posts = s.posts := rfl
@[simp] theorem State.updCard_streams (s : State) (i : Nat) (f : Card → Card) : (s.updCard i f).streams = s.streams := rfl
@[simp] theorem State.updCard_hostqs (s : State) (i : Nat) (f : Card → Card) : (s.updCard i f).hostqs = s.hostqs := rfl
@[simp] theorem State.updCard_ctl (s : State) (i : Nat) (f : Card → Card) : (s.updCard i f).ctl = s.ctl := rfl
@[simp] theorem State.updCard_journal (s : State) (i : Nat) (f : Card → Card) : (s.updCard i f).journal = s.journal := rfl
@[simp] theorem State.updCard_time (s : State) (i : Nat) (f : Card → Card) : (s.updCard i f).time = s.time := rfl
@[simp] theorem State.updCard_series (s : State) (i : Nat) (f : Card → Card) : (s.updCard i f).series = s.series := rfl
@[simp] theorem State.updCard_package (s : State) (i : Nat) (f : Card → Card) : (s.updCard i f).package = s.package := rfl
@[simp] theorem State.updCard_fabric (s : State) (i : Nat) (f : Card → Card) : (s.updCard i f).fabric = s.fabric := rfl
@[simp] theorem State.updCard_agenda (s : State) (i : Nat) (f : Card → Card) : (s.updCard i f).agenda = s.agenda := rfl
@[simp] theorem State.updCard_todo (s : State) (i : Nat) (f : Card → Card) : (s.updCard i f).todo = s.todo := rfl
@[simp] theorem State.updCard_clk (s : State) (i : Nat) (f : Card → Card) : (s.updCard i f).clk = s.clk := rfl
@[simp] theorem State.updCard_issuing (s : State) (i : Nat) (f : Card → Card) : (s.updCard i f).issuing = s.issuing := rfl
@[simp] theorem State.updCard_stalled (s : State) (i : Nat) (f : Card → Card) : (s.updCard i f).stalled = s.stalled := rfl
@[simp] theorem State.updCard_scored (s : State) (i : Nat) (f : Card → Card) : (s.updCard i f).scored = s.scored := rfl
@[simp] theorem State.updCard_fresh (s : State) (i : Nat) (f : Card → Card) : (s.updCard i f).fresh = s.fresh := rfl
@[simp] theorem State.updCard_freeCtr (s : State) (i : Nat) (f : Card → Card) : (s.updCard i f).freeCtr = s.freeCtr := rfl

/-! ### updGroup -/

@[simp] theorem State.updGroup_mem (s : State) (i : Nat) (f : Group → Group) : (s.updGroup i f).mem = s.mem := rfl
@[simp] theorem State.updGroup_flaws (s : State) (i : Nat) (f : Group → Group) : (s.updGroup i f).flaws = s.flaws := rfl
@[simp] theorem State.updGroup_clusters (s : State) (i : Nat) (f : Group → Group) : (s.updGroup i f).clusters = s.clusters := rfl
@[simp] theorem State.updGroup_cores (s : State) (i : Nat) (f : Group → Group) : (s.updGroup i f).cores = s.cores := rfl
@[simp] theorem State.updGroup_ctxs (s : State) (i : Nat) (f : Group → Group) : (s.updGroup i f).ctxs = s.ctxs := rfl
@[simp] theorem State.updGroup_threads (s : State) (i : Nat) (f : Group → Group) : (s.updGroup i f).threads = s.threads := rfl
@[simp] theorem State.updGroup_teams (s : State) (i : Nat) (f : Group → Group) : (s.updGroup i f).teams = s.teams := rfl
@[simp] theorem State.updGroup_cards (s : State) (i : Nat) (f : Group → Group) : (s.updGroup i f).cards = s.cards := rfl
@[simp] theorem State.updGroup_ops (s : State) (i : Nat) (f : Group → Group) : (s.updGroup i f).ops = s.ops := rfl
@[simp] theorem State.updGroup_posts (s : State) (i : Nat) (f : Group → Group) : (s.updGroup i f).posts = s.posts := rfl
@[simp] theorem State.updGroup_streams (s : State) (i : Nat) (f : Group → Group) : (s.updGroup i f).streams = s.streams := rfl
@[simp] theorem State.updGroup_hostqs (s : State) (i : Nat) (f : Group → Group) : (s.updGroup i f).hostqs = s.hostqs := rfl
@[simp] theorem State.updGroup_ctl (s : State) (i : Nat) (f : Group → Group) : (s.updGroup i f).ctl = s.ctl := rfl
@[simp] theorem State.updGroup_journal (s : State) (i : Nat) (f : Group → Group) : (s.updGroup i f).journal = s.journal := rfl
@[simp] theorem State.updGroup_time (s : State) (i : Nat) (f : Group → Group) : (s.updGroup i f).time = s.time := rfl
@[simp] theorem State.updGroup_series (s : State) (i : Nat) (f : Group → Group) : (s.updGroup i f).series = s.series := rfl
@[simp] theorem State.updGroup_package (s : State) (i : Nat) (f : Group → Group) : (s.updGroup i f).package = s.package := rfl
@[simp] theorem State.updGroup_fabric (s : State) (i : Nat) (f : Group → Group) : (s.updGroup i f).fabric = s.fabric := rfl
@[simp] theorem State.updGroup_agenda (s : State) (i : Nat) (f : Group → Group) : (s.updGroup i f).agenda = s.agenda := rfl
@[simp] theorem State.updGroup_todo (s : State) (i : Nat) (f : Group → Group) : (s.updGroup i f).todo = s.todo := rfl
@[simp] theorem State.updGroup_clk (s : State) (i : Nat) (f : Group → Group) : (s.updGroup i f).clk = s.clk := rfl
@[simp] theorem State.updGroup_issuing (s : State) (i : Nat) (f : Group → Group) : (s.updGroup i f).issuing = s.issuing := rfl
@[simp] theorem State.updGroup_stalled (s : State) (i : Nat) (f : Group → Group) : (s.updGroup i f).stalled = s.stalled := rfl
@[simp] theorem State.updGroup_scored (s : State) (i : Nat) (f : Group → Group) : (s.updGroup i f).scored = s.scored := rfl
@[simp] theorem State.updGroup_fresh (s : State) (i : Nat) (f : Group → Group) : (s.updGroup i f).fresh = s.fresh := rfl
@[simp] theorem State.updGroup_freeCtr (s : State) (i : Nat) (f : Group → Group) : (s.updGroup i f).freeCtr = s.freeCtr := rfl

/-! ### bump -/

@[simp] theorem State.bump_mem (s : State) : (s.bump).mem = s.mem := rfl
@[simp] theorem State.bump_flaws (s : State) : (s.bump).flaws = s.flaws := rfl
@[simp] theorem State.bump_clusters (s : State) : (s.bump).clusters = s.clusters := rfl
@[simp] theorem State.bump_cores (s : State) : (s.bump).cores = s.cores := rfl
@[simp] theorem State.bump_ctxs (s : State) : (s.bump).ctxs = s.ctxs := rfl
@[simp] theorem State.bump_threads (s : State) : (s.bump).threads = s.threads := rfl
@[simp] theorem State.bump_groups (s : State) : (s.bump).groups = s.groups := rfl
@[simp] theorem State.bump_teams (s : State) : (s.bump).teams = s.teams := rfl
@[simp] theorem State.bump_cards (s : State) : (s.bump).cards = s.cards := rfl
@[simp] theorem State.bump_ops (s : State) : (s.bump).ops = s.ops := rfl
@[simp] theorem State.bump_posts (s : State) : (s.bump).posts = s.posts := rfl
@[simp] theorem State.bump_streams (s : State) : (s.bump).streams = s.streams := rfl
@[simp] theorem State.bump_hostqs (s : State) : (s.bump).hostqs = s.hostqs := rfl
@[simp] theorem State.bump_ctl (s : State) : (s.bump).ctl = s.ctl := rfl
@[simp] theorem State.bump_journal (s : State) : (s.bump).journal = s.journal := rfl
@[simp] theorem State.bump_time (s : State) : (s.bump).time = s.time := rfl
@[simp] theorem State.bump_series (s : State) : (s.bump).series = s.series := rfl
@[simp] theorem State.bump_package (s : State) : (s.bump).package = s.package := rfl
@[simp] theorem State.bump_fabric (s : State) : (s.bump).fabric = s.fabric := rfl
@[simp] theorem State.bump_agenda (s : State) : (s.bump).agenda = s.agenda := rfl
@[simp] theorem State.bump_todo (s : State) : (s.bump).todo = s.todo := rfl
@[simp] theorem State.bump_clk (s : State) : (s.bump).clk = s.clk := rfl
@[simp] theorem State.bump_issuing (s : State) : (s.bump).issuing = s.issuing := rfl
@[simp] theorem State.bump_stalled (s : State) : (s.bump).stalled = s.stalled := rfl
@[simp] theorem State.bump_scored (s : State) : (s.bump).scored = s.scored := rfl
@[simp] theorem State.bump_freeCtr (s : State) : (s.bump).freeCtr = s.freeCtr := rfl

/-! ### useFree -/

@[simp] theorem State.useFree_mem (s : State) : (s.useFree).mem = s.mem := rfl
@[simp] theorem State.useFree_flaws (s : State) : (s.useFree).flaws = s.flaws := rfl
@[simp] theorem State.useFree_clusters (s : State) : (s.useFree).clusters = s.clusters := rfl
@[simp] theorem State.useFree_cores (s : State) : (s.useFree).cores = s.cores := rfl
@[simp] theorem State.useFree_ctxs (s : State) : (s.useFree).ctxs = s.ctxs := rfl
@[simp] theorem State.useFree_threads (s : State) : (s.useFree).threads = s.threads := rfl
@[simp] theorem State.useFree_groups (s : State) : (s.useFree).groups = s.groups := rfl
@[simp] theorem State.useFree_teams (s : State) : (s.useFree).teams = s.teams := rfl
@[simp] theorem State.useFree_cards (s : State) : (s.useFree).cards = s.cards := rfl
@[simp] theorem State.useFree_ops (s : State) : (s.useFree).ops = s.ops := rfl
@[simp] theorem State.useFree_posts (s : State) : (s.useFree).posts = s.posts := rfl
@[simp] theorem State.useFree_streams (s : State) : (s.useFree).streams = s.streams := rfl
@[simp] theorem State.useFree_hostqs (s : State) : (s.useFree).hostqs = s.hostqs := rfl
@[simp] theorem State.useFree_ctl (s : State) : (s.useFree).ctl = s.ctl := rfl
@[simp] theorem State.useFree_journal (s : State) : (s.useFree).journal = s.journal := rfl
@[simp] theorem State.useFree_time (s : State) : (s.useFree).time = s.time := rfl
@[simp] theorem State.useFree_series (s : State) : (s.useFree).series = s.series := rfl
@[simp] theorem State.useFree_package (s : State) : (s.useFree).package = s.package := rfl
@[simp] theorem State.useFree_fabric (s : State) : (s.useFree).fabric = s.fabric := rfl
@[simp] theorem State.useFree_agenda (s : State) : (s.useFree).agenda = s.agenda := rfl
@[simp] theorem State.useFree_todo (s : State) : (s.useFree).todo = s.todo := rfl
@[simp] theorem State.useFree_clk (s : State) : (s.useFree).clk = s.clk := rfl
@[simp] theorem State.useFree_issuing (s : State) : (s.useFree).issuing = s.issuing := rfl
@[simp] theorem State.useFree_stalled (s : State) : (s.useFree).stalled = s.stalled := rfl
@[simp] theorem State.useFree_scored (s : State) : (s.useFree).scored = s.scored := rfl
@[simp] theorem State.useFree_fresh (s : State) : (s.useFree).fresh = s.fresh := rfl

/-! ### The parts themselves -/

@[simp] theorem State.bump_fresh (s : State) : s.bump.fresh = s.fresh + 1 := rfl
@[simp] theorem State.useFree_freeCtr (s : State) : s.useFree.freeCtr = s.freeCtr + 1 := rfl

@[simp] theorem State.core_updCore_same (s : State) (i : Nat) (f : CoreSt → CoreSt) : (s.updCore i f).core i = f (s.core i) := by
  simp [State.core, State.updCore, tgetD_tset]

theorem State.core_updCore_other (s : State) {i j : Nat} (f : CoreSt → CoreSt) (h : j ≠ i) : (s.updCore i f).core j = s.core j := by
  simp [State.core, State.updCore, tgetD_tset, h]

theorem State.core_updCore (s : State) (i j : Nat) (f : CoreSt → CoreSt) :
    (s.updCore i f).core j = if j = i then f (s.core i) else s.core j := by
  simp [State.core, State.updCore, tgetD_tset]

@[simp] theorem State.cluster_updCluster_same (s : State) (i : Nat) (f : ClusterSt → ClusterSt) : (s.updCluster i f).cluster i = f (s.cluster i) := by
  simp [State.cluster, State.updCluster, tgetD_tset]

theorem State.cluster_updCluster_other (s : State) {i j : Nat} (f : ClusterSt → ClusterSt) (h : j ≠ i) : (s.updCluster i f).cluster j = s.cluster j := by
  simp [State.cluster, State.updCluster, tgetD_tset, h]

theorem State.cluster_updCluster (s : State) (i j : Nat) (f : ClusterSt → ClusterSt) :
    (s.updCluster i f).cluster j = if j = i then f (s.cluster i) else s.cluster j := by
  simp [State.cluster, State.updCluster, tgetD_tset]

@[simp] theorem State.ctx_updCtx_same (s : State) (i : Nat) (f : CtxSt → CtxSt) : (s.updCtx i f).ctx i = f (s.ctx i) := by
  simp [State.ctx, State.updCtx, tgetD_tset]

theorem State.ctx_updCtx_other (s : State) {i j : Nat} (f : CtxSt → CtxSt) (h : j ≠ i) : (s.updCtx i f).ctx j = s.ctx j := by
  simp [State.ctx, State.updCtx, tgetD_tset, h]

theorem State.ctx_updCtx (s : State) (i j : Nat) (f : CtxSt → CtxSt) :
    (s.updCtx i f).ctx j = if j = i then f (s.ctx i) else s.ctx j := by
  simp [State.ctx, State.updCtx, tgetD_tset]

@[simp] theorem State.stream_updStream_same (s : State) (i : Nat) (f : Stream → Stream) : (s.updStream i f).stream i = f (s.stream i) := by
  simp [State.stream, State.updStream, tgetD_tset]

theorem State.stream_updStream_other (s : State) {i j : Nat} (f : Stream → Stream) (h : j ≠ i) : (s.updStream i f).stream j = s.stream j := by
  simp [State.stream, State.updStream, tgetD_tset, h]

theorem State.stream_updStream (s : State) (i j : Nat) (f : Stream → Stream) :
    (s.updStream i f).stream j = if j = i then f (s.stream i) else s.stream j := by
  simp [State.stream, State.updStream, tgetD_tset]

@[simp] theorem State.hostq_updHostq_same (s : State) (i : Nat) (f : HostQ → HostQ) : (s.updHostq i f).hostq i = f (s.hostq i) := by
  simp [State.hostq, State.updHostq, tgetD_tset]

theorem State.hostq_updHostq_other (s : State) {i j : Nat} (f : HostQ → HostQ) (h : j ≠ i) : (s.updHostq i f).hostq j = s.hostq j := by
  simp [State.hostq, State.updHostq, tgetD_tset, h]

theorem State.hostq_updHostq (s : State) (i j : Nat) (f : HostQ → HostQ) :
    (s.updHostq i f).hostq j = if j = i then f (s.hostq i) else s.hostq j := by
  simp [State.hostq, State.updHostq, tgetD_tset]

@[simp] theorem State.ctlCore_updCtl_same (s : State) (i : Nat) (f : CtlCore → CtlCore) : (s.updCtl i f).ctlCore i = f (s.ctlCore i) := by
  simp [State.ctlCore, State.updCtl, tgetD_tset]

theorem State.ctlCore_updCtl_other (s : State) {i j : Nat} (f : CtlCore → CtlCore) (h : j ≠ i) : (s.updCtl i f).ctlCore j = s.ctlCore j := by
  simp [State.ctlCore, State.updCtl, tgetD_tset, h]

theorem State.ctlCore_updCtl (s : State) (i j : Nat) (f : CtlCore → CtlCore) :
    (s.updCtl i f).ctlCore j = if j = i then f (s.ctlCore i) else s.ctlCore j := by
  simp [State.ctlCore, State.updCtl, tgetD_tset]

@[simp] theorem State.threads_updThread_same (s : State) (i : Nat) (f : Thread → Thread) :
    tget (s.updThread i f).threads i = (tget s.threads i).map f := tget_tupd_same _ _ _

theorem State.threads_updThread_other (s : State) {i j : Nat} (f : Thread → Thread) (h : j ≠ i) :
    tget (s.updThread i f).threads j = tget s.threads j := tget_tupd_other _ _ h

theorem State.threads_updThread (s : State) (i j : Nat) (f : Thread → Thread) :
    tget (s.updThread i f).threads j = if j = i then (tget s.threads i).map f else tget s.threads j := tget_tupd _ _ _ _

@[simp] theorem State.teams_updTeam_same (s : State) (i : Nat) (f : Team → Team) :
    tget (s.updTeam i f).teams i = (tget s.teams i).map f := tget_tupd_same _ _ _

theorem State.teams_updTeam_other (s : State) {i j : Nat} (f : Team → Team) (h : j ≠ i) :
    tget (s.updTeam i f).teams j = tget s.teams j := tget_tupd_other _ _ h

theorem State.teams_updTeam (s : State) (i j : Nat) (f : Team → Team) :
    tget (s.updTeam i f).teams j = if j = i then (tget s.teams i).map f else tget s.teams j := tget_tupd _ _ _ _

@[simp] theorem State.cards_updCard_same (s : State) (i : Nat) (f : Card → Card) :
    tget (s.updCard i f).cards i = (tget s.cards i).map f := tget_tupd_same _ _ _

theorem State.cards_updCard_other (s : State) {i j : Nat} (f : Card → Card) (h : j ≠ i) :
    tget (s.updCard i f).cards j = tget s.cards j := tget_tupd_other _ _ h

theorem State.cards_updCard (s : State) (i j : Nat) (f : Card → Card) :
    tget (s.updCard i f).cards j = if j = i then (tget s.cards i).map f else tget s.cards j := tget_tupd _ _ _ _

@[simp] theorem State.groups_updGroup_same (s : State) (i : Nat) (f : Group → Group) :
    tget (s.updGroup i f).groups i = (tget s.groups i).map f := tget_tupd_same _ _ _

theorem State.groups_updGroup_other (s : State) {i j : Nat} (f : Group → Group) (h : j ≠ i) :
    tget (s.updGroup i f).groups j = tget s.groups j := tget_tupd_other _ _ h

theorem State.groups_updGroup (s : State) (i j : Nat) (f : Group → Group) :
    tget (s.updGroup i f).groups j = if j = i then (tget s.groups i).map f else tget s.groups j := tget_tupd _ _ _ _

@[simp] theorem State.updCore_cluster_eq (s : State) (c : Nat) (f : CoreSt → CoreSt) (j : Nat) : (s.updCore c f).cluster j = s.cluster j := rfl
@[simp] theorem State.updCore_ctx_eq (s : State) (c : Nat) (f : CoreSt → CoreSt) (j : Nat) : (s.updCore c f).ctx j = s.ctx j := rfl
@[simp] theorem State.updCore_stream_eq (s : State) (c : Nat) (f : CoreSt → CoreSt) (j : Nat) : (s.updCore c f).stream j = s.stream j := rfl
@[simp] theorem State.updCore_hostq_eq (s : State) (c : Nat) (f : CoreSt → CoreSt) (j : Nat) : (s.updCore c f).hostq j = s.hostq j := rfl
@[simp] theorem State.updCore_ctlCore_eq (s : State) (c : Nat) (f : CoreSt → CoreSt) (j : Nat) : (s.updCore c f).ctlCore j = s.ctlCore j := rfl
@[simp] theorem State.updCluster_core_eq (s : State) (c : Nat) (f : ClusterSt → ClusterSt) (j : Nat) : (s.updCluster c f).core j = s.core j := rfl
@[simp] theorem State.updCluster_ctx_eq (s : State) (c : Nat) (f : ClusterSt → ClusterSt) (j : Nat) : (s.updCluster c f).ctx j = s.ctx j := rfl
@[simp] theorem State.updCluster_stream_eq (s : State) (c : Nat) (f : ClusterSt → ClusterSt) (j : Nat) : (s.updCluster c f).stream j = s.stream j := rfl
@[simp] theorem State.updCluster_hostq_eq (s : State) (c : Nat) (f : ClusterSt → ClusterSt) (j : Nat) : (s.updCluster c f).hostq j = s.hostq j := rfl
@[simp] theorem State.updCluster_ctlCore_eq (s : State) (c : Nat) (f : ClusterSt → ClusterSt) (j : Nat) : (s.updCluster c f).ctlCore j = s.ctlCore j := rfl
@[simp] theorem State.updCtx_core_eq (s : State) (c : Nat) (f : CtxSt → CtxSt) (j : Nat) : (s.updCtx c f).core j = s.core j := rfl
@[simp] theorem State.updCtx_cluster_eq (s : State) (c : Nat) (f : CtxSt → CtxSt) (j : Nat) : (s.updCtx c f).cluster j = s.cluster j := rfl
@[simp] theorem State.updCtx_stream_eq (s : State) (c : Nat) (f : CtxSt → CtxSt) (j : Nat) : (s.updCtx c f).stream j = s.stream j := rfl
@[simp] theorem State.updCtx_hostq_eq (s : State) (c : Nat) (f : CtxSt → CtxSt) (j : Nat) : (s.updCtx c f).hostq j = s.hostq j := rfl
@[simp] theorem State.updCtx_ctlCore_eq (s : State) (c : Nat) (f : CtxSt → CtxSt) (j : Nat) : (s.updCtx c f).ctlCore j = s.ctlCore j := rfl
@[simp] theorem State.updChain_core_eq (s : State) (c ch : Nat) (f : Chain → Chain) (j : Nat) : (s.updChain c ch f).core j = s.core j := rfl
@[simp] theorem State.updChain_cluster_eq (s : State) (c ch : Nat) (f : Chain → Chain) (j : Nat) : (s.updChain c ch f).cluster j = s.cluster j := rfl
@[simp] theorem State.updChain_stream_eq (s : State) (c ch : Nat) (f : Chain → Chain) (j : Nat) : (s.updChain c ch f).stream j = s.stream j := rfl
@[simp] theorem State.updChain_hostq_eq (s : State) (c ch : Nat) (f : Chain → Chain) (j : Nat) : (s.updChain c ch f).hostq j = s.hostq j := rfl
@[simp] theorem State.updChain_ctlCore_eq (s : State) (c ch : Nat) (f : Chain → Chain) (j : Nat) : (s.updChain c ch f).ctlCore j = s.ctlCore j := rfl
@[simp] theorem State.updStream_core_eq (s : State) (n : Nat) (f : Stream → Stream) (j : Nat) : (s.updStream n f).core j = s.core j := rfl
@[simp] theorem State.updStream_cluster_eq (s : State) (n : Nat) (f : Stream → Stream) (j : Nat) : (s.updStream n f).cluster j = s.cluster j := rfl
@[simp] theorem State.updStream_ctx_eq (s : State) (n : Nat) (f : Stream → Stream) (j : Nat) : (s.updStream n f).ctx j = s.ctx j := rfl
@[simp] theorem State.updStream_hostq_eq (s : State) (n : Nat) (f : Stream → Stream) (j : Nat) : (s.updStream n f).hostq j = s.hostq j := rfl
@[simp] theorem State.updStream_ctlCore_eq (s : State) (n : Nat) (f : Stream → Stream) (j : Nat) : (s.updStream n f).ctlCore j = s.ctlCore j := rfl
@[simp] theorem State.updHostq_core_eq (s : State) (n : Nat) (f : HostQ → HostQ) (j : Nat) : (s.updHostq n f).core j = s.core j := rfl
@[simp] theorem State.updHostq_cluster_eq (s : State) (n : Nat) (f : HostQ → HostQ) (j : Nat) : (s.updHostq n f).cluster j = s.cluster j := rfl
@[simp] theorem State.updHostq_ctx_eq (s : State) (n : Nat) (f : HostQ → HostQ) (j : Nat) : (s.updHostq n f).ctx j = s.ctx j := rfl
@[simp] theorem State.updHostq_stream_eq (s : State) (n : Nat) (f : HostQ → HostQ) (j : Nat) : (s.updHostq n f).stream j = s.stream j := rfl
@[simp] theorem State.updHostq_ctlCore_eq (s : State) (n : Nat) (f : HostQ → HostQ) (j : Nat) : (s.updHostq n f).ctlCore j = s.ctlCore j := rfl
@[simp] theorem State.updCtl_core_eq (s : State) (n : Nat) (f : CtlCore → CtlCore) (j : Nat) : (s.updCtl n f).core j = s.core j := rfl
@[simp] theorem State.updCtl_cluster_eq (s : State) (n : Nat) (f : CtlCore → CtlCore) (j : Nat) : (s.updCtl n f).cluster j = s.cluster j := rfl
@[simp] theorem State.updCtl_ctx_eq (s : State) (n : Nat) (f : CtlCore → CtlCore) (j : Nat) : (s.updCtl n f).ctx j = s.ctx j := rfl
@[simp] theorem State.updCtl_stream_eq (s : State) (n : Nat) (f : CtlCore → CtlCore) (j : Nat) : (s.updCtl n f).stream j = s.stream j := rfl
@[simp] theorem State.updCtl_hostq_eq (s : State) (n : Nat) (f : CtlCore → CtlCore) (j : Nat) : (s.updCtl n f).hostq j = s.hostq j := rfl
@[simp] theorem State.updThread_core_eq (s : State) (i : Nat) (f : Thread → Thread) (j : Nat) : (s.updThread i f).core j = s.core j := rfl
@[simp] theorem State.updThread_cluster_eq (s : State) (i : Nat) (f : Thread → Thread) (j : Nat) : (s.updThread i f).cluster j = s.cluster j := rfl
@[simp] theorem State.updThread_ctx_eq (s : State) (i : Nat) (f : Thread → Thread) (j : Nat) : (s.updThread i f).ctx j = s.ctx j := rfl
@[simp] theorem State.updThread_stream_eq (s : State) (i : Nat) (f : Thread → Thread) (j : Nat) : (s.updThread i f).stream j = s.stream j := rfl
@[simp] theorem State.updThread_hostq_eq (s : State) (i : Nat) (f : Thread → Thread) (j : Nat) : (s.updThread i f).hostq j = s.hostq j := rfl
@[simp] theorem State.updThread_ctlCore_eq (s : State) (i : Nat) (f : Thread → Thread) (j : Nat) : (s.updThread i f).ctlCore j = s.ctlCore j := rfl
@[simp] theorem State.updTeam_core_eq (s : State) (i : Nat) (f : Team → Team) (j : Nat) : (s.updTeam i f).core j = s.core j := rfl
@[simp] theorem State.updTeam_cluster_eq (s : State) (i : Nat) (f : Team → Team) (j : Nat) : (s.updTeam i f).cluster j = s.cluster j := rfl
@[simp] theorem State.updTeam_ctx_eq (s : State) (i : Nat) (f : Team → Team) (j : Nat) : (s.updTeam i f).ctx j = s.ctx j := rfl
@[simp] theorem State.updTeam_stream_eq (s : State) (i : Nat) (f : Team → Team) (j : Nat) : (s.updTeam i f).stream j = s.stream j := rfl
@[simp] theorem State.updTeam_hostq_eq (s : State) (i : Nat) (f : Team → Team) (j : Nat) : (s.updTeam i f).hostq j = s.hostq j := rfl
@[simp] theorem State.updTeam_ctlCore_eq (s : State) (i : Nat) (f : Team → Team) (j : Nat) : (s.updTeam i f).ctlCore j = s.ctlCore j := rfl
@[simp] theorem State.updCard_core_eq (s : State) (i : Nat) (f : Card → Card) (j : Nat) : (s.updCard i f).core j = s.core j := rfl
@[simp] theorem State.updCard_cluster_eq (s : State) (i : Nat) (f : Card → Card) (j : Nat) : (s.updCard i f).cluster j = s.cluster j := rfl
@[simp] theorem State.updCard_ctx_eq (s : State) (i : Nat) (f : Card → Card) (j : Nat) : (s.updCard i f).ctx j = s.ctx j := rfl
@[simp] theorem State.updCard_stream_eq (s : State) (i : Nat) (f : Card → Card) (j : Nat) : (s.updCard i f).stream j = s.stream j := rfl
@[simp] theorem State.updCard_hostq_eq (s : State) (i : Nat) (f : Card → Card) (j : Nat) : (s.updCard i f).hostq j = s.hostq j := rfl
@[simp] theorem State.updCard_ctlCore_eq (s : State) (i : Nat) (f : Card → Card) (j : Nat) : (s.updCard i f).ctlCore j = s.ctlCore j := rfl
@[simp] theorem State.updGroup_core_eq (s : State) (i : Nat) (f : Group → Group) (j : Nat) : (s.updGroup i f).core j = s.core j := rfl
@[simp] theorem State.updGroup_cluster_eq (s : State) (i : Nat) (f : Group → Group) (j : Nat) : (s.updGroup i f).cluster j = s.cluster j := rfl
@[simp] theorem State.updGroup_ctx_eq (s : State) (i : Nat) (f : Group → Group) (j : Nat) : (s.updGroup i f).ctx j = s.ctx j := rfl
@[simp] theorem State.updGroup_stream_eq (s : State) (i : Nat) (f : Group → Group) (j : Nat) : (s.updGroup i f).stream j = s.stream j := rfl
@[simp] theorem State.updGroup_hostq_eq (s : State) (i : Nat) (f : Group → Group) (j : Nat) : (s.updGroup i f).hostq j = s.hostq j := rfl
@[simp] theorem State.updGroup_ctlCore_eq (s : State) (i : Nat) (f : Group → Group) (j : Nat) : (s.updGroup i f).ctlCore j = s.ctlCore j := rfl
@[simp] theorem State.bump_core_eq (s : State) (j : Nat) : (s.bump).core j = s.core j := rfl
@[simp] theorem State.bump_cluster_eq (s : State) (j : Nat) : (s.bump).cluster j = s.cluster j := rfl
@[simp] theorem State.bump_ctx_eq (s : State) (j : Nat) : (s.bump).ctx j = s.ctx j := rfl
@[simp] theorem State.bump_stream_eq (s : State) (j : Nat) : (s.bump).stream j = s.stream j := rfl
@[simp] theorem State.bump_hostq_eq (s : State) (j : Nat) : (s.bump).hostq j = s.hostq j := rfl
@[simp] theorem State.bump_ctlCore_eq (s : State) (j : Nat) : (s.bump).ctlCore j = s.ctlCore j := rfl
@[simp] theorem State.useFree_core_eq (s : State) (j : Nat) : (s.useFree).core j = s.core j := rfl
@[simp] theorem State.useFree_cluster_eq (s : State) (j : Nat) : (s.useFree).cluster j = s.cluster j := rfl
@[simp] theorem State.useFree_ctx_eq (s : State) (j : Nat) : (s.useFree).ctx j = s.ctx j := rfl
@[simp] theorem State.useFree_stream_eq (s : State) (j : Nat) : (s.useFree).stream j = s.stream j := rfl
@[simp] theorem State.useFree_hostq_eq (s : State) (j : Nat) : (s.useFree).hostq j = s.hostq j := rfl
@[simp] theorem State.useFree_ctlCore_eq (s : State) (j : Nat) : (s.useFree).ctlCore j = s.ctlCore j := rfl

end Sys2Proof.Machine
end

