-- ==== Sys2Proof/Laws/Bins.lean ====
section
/-! SUPPORT. Groups and bins: what a new group, a draw and a filing do (R142 to R148). -/

namespace Sys2Proof.Machine

/-- A change of the threads of a list that is the same done twice: each of them is changed, and nothing else. -/
theorem State.foldl_updThread (f : Thread → Thread) (hf : ∀ th, f (f th) = f th) (ts : List Nat) (s : State) :
    ts.foldl (fun s sid => s.updThread sid f) s = { s with threads := (ts.foldl (fun s sid => s.updThread sid f) s).threads }
    ∧ ∀ k, tget (ts.foldl (fun s sid => s.updThread sid f) s).threads k
        = (tget s.threads k).map fun th => if k ∈ ts then f th else th := by
  induction ts generalizing s with
  | nil => simp
  | cons a l ih =>
    obtain ⟨i1, i2⟩ := ih (s.updThread a f)
    refine ⟨by rw [List.foldl_cons, i1]; rfl, fun k => ?_⟩
    rw [List.foldl_cons, i2]
    by_cases hk : k = a
    · subst hk
      simp only [State.updThread, tget_tupd_same, Option.map_map, List.mem_cons, true_or, if_true]
      cases tget s.threads k <;> simp [hf]
    · rw [State.threads_updThread_other _ _ hk]
      simp [hk]

/-- A new group (R142, R148): its threads are in it, at its PC with invalid latches; it enters the ready set, or is
parked. -/
theorem State.newGroup_spec (s : State) (core bank : Nat) (pc : Word) (ts : List Nat) (start prio : Nat) :
    let r := s.newGroup core bank pc ts start prio
    r = { s with threads := r.threads, groups := r.groups, cores := r.cores, fresh := s.fresh + 1 }
    ∧ (∃ p, tget r.groups s.fresh = some
        { core := core, bank := bank, pc := pc, threads := ts, run := [], runPc := pc, window := none, delayUntil := 0,
          yielded := false, mark := 0, wasReady := false, from' := start, parked := p, prio := prio, part := none })
    ∧ (∀ k, k ≠ s.fresh → tget r.groups k = tget s.groups k)
    ∧ (∀ k, tget r.threads k = (tget s.threads k).map fun th =>
        if k ∈ ts then { th with cond := .inGroup s.fresh, pc := pc, b0 := none, b1 := none } else th)
    ∧ (∀ k, r.core k = { s.core k with rotation := (r.core k).rotation, parked := (r.core k).parked })
    ∧ ∀ k, k ≠ core → r.core k = s.core k := by
  intro r
  have hr : r = s.newGroup core bank pc ts start prio := rfl
  unfold State.newGroup at hr
  obtain ⟨i1, i2⟩ := State.foldl_updThread (fun th => { th with cond := .inGroup s.fresh, pc := pc, b0 := none, b1 := none })
    (fun _ => rfl) ts s.bump
  dsimp only at hr
  generalize List.foldl _ s.bump ts = x at hr i1 i2
  generalize (decide (512 ≤ s.bump.readyCount core bank) || !(vget (s.bump.core core).parked bank []).isEmpty) = p at hr
  rw [i1] at hr
  refine ⟨by rw [hr]; rfl, ⟨p, by rw [hr]; exact tget_tset_same _ _ _⟩, fun k hk => by rw [hr]; exact tget_tset_other _ _ hk,
    fun k => by rw [hr]; exact i2 k, fun k => ?_, fun k hk => by rw [hr]; exact tgetD_tset_other _ _ _ hk⟩
  by_cases hk : k = core
  · subst hk
    have hc : ∃ g : CoreSt → CoreSt, (∀ c, g c = { c with rotation := (g c).rotation, parked := (g c).parked })
        ∧ r.core k = g (s.core k) := by
      refine ⟨fun c => if p then { c with parked := vset c.parked bank (vget c.parked bank [] ++ [s.fresh]) }
          else { c with rotation := c.rotation ++ [s.fresh] }, ?_, by rw [hr, State.core_updCore_same]; rfl⟩
      intro c; cases p <;> rfl
    obtain ⟨g, g1, g2⟩ := hc
    rw [g2]; exact g1 _
  · have : r.core k = s.core k := by rw [hr]; exact tgetD_tset_other _ _ _ hk
    rw [this]

/-- A draw of a bin (R146). -/
theorem State.drawBin_spec (s : State) (core bank : Nat) (b : Bin) (hb : bank < 2)
    (hf : (vget (s.core core).bins bank []).find? (fun x => x.key == b.key) = some b) :
    let r := s.drawBin core bank b.key
    r = { s with threads := r.threads, groups := r.groups, cores := r.cores, fresh := s.fresh + 1 }
    ∧ (∃ p, tget r.groups s.fresh = some
        { core := core, bank := bank, pc := b.key, threads := drawOf b, run := [], runPc := b.key, window := none,
          delayUntil := 0, yielded := false, mark := 0, wasReady := false, from' := s.clk + 1, parked := p, prio := 0,
          part := none })
    ∧ (∀ k, k ≠ s.fresh → tget r.groups k = tget s.groups k)
    ∧ (∀ k, tget r.threads k = (tget s.threads k).map fun th =>
        if k ∈ drawOf b then { th with cond := .inGroup s.fresh, pc := b.key, b0 := none, b1 := none } else th)
    ∧ (∀ x ∈ vget (r.core core).bins bank [], x.key = b.key → x.filed = b.filed.filter fun y => !(drawOf b).contains y.1)
    ∧ (∀ k, k ≠ core → r.core k = s.core k) := by
  intro r
  have hr : r = s.drawBin core bank b.key := rfl
  unfold State.drawBin at hr
  rw [hf] at hr
  dsimp only at hr
  generalize hs : s.updCore core _ = s1 at hr
  obtain ⟨n1, n2, n3, n4, n5, n6⟩ := s1.newGroup_spec core bank b.key (drawOf b) (s1.clk + 1) 0
  rw [← hr] at n1 n2 n3 n4 n5 n6
  refine ⟨by rw [n1, ← hs]; rfl, by rw [← hs] at n2; exact n2, fun k hk => ?_, by rw [← hs] at n4; exact n4, ?_, fun k hk => ?_⟩
  · rw [n3 k (by rw [← hs]; exact hk), ← hs]; rfl
  · intro x hx hk
    rw [n5, ← hs] at hx
    simp only [State.core, State.updCore, tgetD_tset_same] at hx
    rw [vget_vset_same _ _ _ hb] at hx
    obtain ⟨h1, -⟩ := List.mem_filter.1 hx
    obtain ⟨y, -, rfl⟩ := List.mem_map.1 h1
    split at hk <;> rename_i hy
    · simp only [hy, if_true]
    · simp [hk] at hy
  · rw [n6 k hk, ← hs]; exact tgetD_tset_other _ _ _ hk

/-- What a draw takes is filed in the bin. -/
theorem mem_drawOf {b : Bin} {sid : Nat} (h : sid ∈ drawOf b) : ∃ y ∈ b.filed, y.1 = sid := by
  obtain ⟨l, -, hl⟩ := List.mem_filterMap.1 h
  cases hf : b.filed.find? (fun x => sidLane x.1 == l) with
  | none => simp [hf] at hl
  | some y => exact ⟨y, List.mem_of_find?_eq_some hf, by simpa [hf] using hl⟩

/-- No bin of a bank holds a thread. -/
def NotFiled (s : State) (core bank sid : Nat) : Prop := ∀ x ∈ vget (s.core core).bins bank [], ∀ y ∈ x.filed, y.1 ≠ sid

/-- A draw of a bin leaves a thread that is not filed as it was. -/
theorem State.drawBin_other (s : State) (core bank : Nat) (key : Word) (sid : Nat) (hb : bank < 2) (hn : NotFiled s core bank sid) :
    let r := s.drawBin core bank key
    r = { s with threads := r.threads, groups := r.groups, cores := r.cores, fresh := r.fresh }
    ∧ tget r.threads sid = tget s.threads sid ∧ NotFiled r core bank sid := by
  intro r
  have hr : r = s.drawBin core bank key := rfl
  cases hf : (vget (s.core core).bins bank []).find? fun x => x.key == key with
  | none =>
    have : r = s := by rw [hr]; unfold State.drawBin; rw [hf]
    rw [this]; exact ⟨rfl, rfl, hn⟩
  | some b =>
    have hk : b.key = key := by simpa using List.find?_some hf
    have hm := List.mem_of_find?_eq_some hf
    subst hk
    obtain ⟨d1, -, -, d4, -, -⟩ := s.drawBin_spec core bank b hb hf
    rw [← hr] at d1 d4
    refine ⟨by have h : r.fresh = s.fresh + 1 := by rw [d1]
               rw [h]; exact d1, ?_, ?_⟩
    · rw [d4]
      have : sid ∉ drawOf b := fun h => by obtain ⟨y, h1, h2⟩ := mem_drawOf h; exact hn b hm y h1 h2
      simp [this]
    · intro x hx y hy
      have hcore : r.core core = { s.core core with
          bins := vset (s.core core).bins bank (((vget (s.core core).bins bank []).map fun b' =>
              if b'.key == b.key then { b' with filed := b.filed.filter fun x => !(drawOf b).contains x.1 } else b').filter
                fun b' => !b'.filed.isEmpty),
          rotation := (r.core core).rotation, parked := (r.core core).parked } := by
        have hr' := hr
        unfold State.drawBin at hr'
        rw [hf] at hr'
        dsimp only at hr'
        generalize hs : s.updCore core _ = s1 at hr'
        obtain ⟨-, -, -, -, n5, -⟩ := s1.newGroup_spec core bank b.key (drawOf b) (s1.clk + 1) 0
        rw [← hr'] at n5
        rw [n5, ← hs, State.core_updCore_same]
      rw [hcore, vget_vset_same _ _ _ hb] at hx
      obtain ⟨h1, -⟩ := List.mem_filter.1 hx
      obtain ⟨z, hz, rfl⟩ := List.mem_map.1 h1
      split at hy
      · exact hn b hm y (List.mem_filter.1 hy).1
      · exact hn z hz y hy

/-- Draws of a bin until it is empty leave a thread that is not filed as it was. -/
theorem State.drawAll_other (n : Nat) (s : State) (core bank : Nat) (key : Word) (sid : Nat) (hb : bank < 2)
    (hn : NotFiled s core bank sid) :
    let r := s.drawAll core bank key n
    r = { s with threads := r.threads, groups := r.groups, cores := r.cores, fresh := r.fresh }
    ∧ tget r.threads sid = tget s.threads sid ∧ NotFiled r core bank sid := by
  induction n generalizing s with
  | zero => exact ⟨rfl, rfl, hn⟩
  | succ n ih =>
    obtain ⟨d1, d2, d3⟩ := s.drawBin_other core bank key sid hb hn
    obtain ⟨i1, i2, i3⟩ := ih _ d3
    refine ⟨?_, i2.trans d2, i3⟩
    unfold State.drawAll
    rw [i1, d1]

/-- A filing (R144, R147): the thread is filed in the bin of its key, which is opened if need be. -/
theorem State.fileThread_spec {s : State} {sid : Nat} {th : Thread} (key : Word) (ht : tget s.threads sid = some th)
    (hn : NotFiled s (sidCore sid) (sidBank sid) sid) :
    let r := s.fileThread sid key
    r = { s with threads := r.threads, groups := r.groups, cores := r.cores, fresh := r.fresh }
    ∧ tget r.threads sid = some { th with cond := .filed, pc := key, b0 := none, b1 := none }
    ∧ ∃ x ∈ vget (r.core (sidCore sid)).bins (sidBank sid) [], x.key = key ∧ ∃ y ∈ x.filed, y.1 = sid := by
  have hb : sidBank sid < 2 := Nat.mod_lt _ (by omega)
  intro r
  have hr : r = s.fileThread sid key := rfl
  unfold State.fileThread at hr
  rw [ht] at hr
  dsimp only at hr
  generalize hs : (s.updThread sid fun th => { th with cond := .filed, pc := key, b0 := none, b1 := none }) = s1 at hr
  have h1 : s1 = { s with threads := s1.threads } := by rw [← hs]; rfl
  have h2 : tget s1.threads sid = some { th with cond := .filed, pc := key, b0 := none, b1 := none } := by
    rw [← hs, State.threads_updThread_same, ht]; rfl
  have h3 : NotFiled s1 (sidCore sid) (sidBank sid) sid := by rw [h1]; exact hn
  split at hr
  · next hany =>
    obtain ⟨x, hx, hk⟩ := List.any_eq_true.1 hany
    refine ⟨by rw [hr, h1]; rfl, by rw [hr]; exact h2, ?_⟩
    rw [hr, State.core_updCore_same]
    refine ⟨{ x with filed := x.filed ++ [(sid, s1.coreClk (sidCore sid))] }, ?_, by simpa using hk, (sid, s1.coreClk (sidCore sid)), ?_, rfl⟩
    · rw [vget_vset_same _ _ _ hb]
      exact List.mem_map.2 ⟨x, hx, by simp [hk]⟩
    · simp
  · have hfin : ∀ s2 : State, s2 = { s1 with threads := s2.threads, groups := s2.groups, cores := s2.cores, fresh := s2.fresh } →
        tget s2.threads sid = tget s1.threads sid → ∀ fresh : Bin, fresh.key = key → fresh.filed = [(sid, s1.coreClk (sidCore sid))] →
        r = s2.updCore (sidCore sid) (fun c => { c with bins := vset c.bins (sidBank sid) (vget c.bins (sidBank sid) [] ++ [fresh]) }) →
        r = { s with threads := r.threads, groups := r.groups, cores := r.cores, fresh := r.fresh }
        ∧ tget r.threads sid = some { th with cond := .filed, pc := key, b0 := none, b1 := none }
        ∧ ∃ x ∈ vget (r.core (sidCore sid)).bins (sidBank sid) [], x.key = key ∧ ∃ y ∈ x.filed, y.1 = sid := by
      intro s2 e1 e2 fresh f1 f2 e3
      refine ⟨by rw [e3, e1, h1]; rfl, by rw [e3]; exact e2.trans h2, ?_⟩
      rw [e3, State.core_updCore_same]
      refine ⟨fresh, ?_, f1, (sid, _), by rw [f2]; exact List.mem_singleton.2 rfl, rfl⟩
      rw [vget_vset_same _ _ _ hb]; simp
    split at hr
    · exact hfin s1 rfl rfl _ rfl rfl hr
    · split at hr
      · exact hfin s1 rfl rfl _ rfl rfl hr
      · next b _ =>
        obtain ⟨d1, d2, d3⟩ := s1.drawAll_other b.filed.length (sidCore sid) (sidBank sid) b.key sid hb h3
        exact hfin _ d1 d2 _ rfl rfl hr

end Sys2Proof.Machine
end

