-- ==== Sys2Proof/Laws/Memory.lean ====
section
/-! SUPPORT. Bytes of memory: what a read after a write gives, and that every operation keeps the canonical form. -/

namespace Sys2Proof.Machine

/-! ### The canonical form -/

/-- Every location of a memory is at least `n`. -/
def memFrom (n : Nat) (m : List Host.Cell) : Prop := ∀ c ∈ m, n ≤ c.1

theorem memWf_cons {p : Nat} {b : Byte} {r : List Host.Cell} :
    memWf ((p, b) :: r) = true ↔ b ≠ unlistedByte ∧ memFrom (p + 1) r ∧ memWf r = true := by
  induction r generalizing p b with
  | nil => simp [memWf, memFrom]
  | cons c r ih =>
    obtain ⟨q, x⟩ := c
    have hq := ih (p := q) (b := x)
    constructor
    · intro h
      simp only [memWf, Bool.and_eq_true, bne_iff_ne, ne_eq, decide_eq_true_eq] at h hq ⊢
      obtain ⟨⟨h1, h2⟩, h3⟩ := h
      refine ⟨h1, ?_, h3⟩
      intro c hc
      rcases List.mem_cons.mp hc with rfl | hc
      · exact h2
      · have := (hq.mp h3).2.1 c hc
        omega
    · rintro ⟨h1, h2, h3⟩
      simp only [memWf, Bool.and_eq_true, bne_iff_ne, ne_eq, decide_eq_true_eq] at h3 ⊢
      exact ⟨⟨h1, h2 (q, x) (by simp)⟩, h3⟩

theorem memFrom_mono {n k : Nat} {m : List Host.Cell} (h : memFrom n m) (hk : k ≤ n) : memFrom k m :=
  fun c hc => Nat.le_trans hk (h c hc)

theorem memFrom_tset {n p : Nat} {b : Byte} {m : List Host.Cell} (h : memFrom n m) (hp : n ≤ p) : memFrom n (tset m p b) := by
  induction m with
  | nil => intro c hc; simp only [tset, List.mem_singleton] at hc; subst hc; exact hp
  | cons c r ih =>
    obtain ⟨q, x⟩ := c
    have hr : memFrom n r := fun c hc => h c (List.mem_cons_of_mem _ hc)
    have hq : n ≤ q := h (q, x) (by simp)
    unfold tset
    split
    · intro c hc
      rcases List.mem_cons.mp hc with rfl | hc
      · exact hp
      · exact h c hc
    · split
      · intro c hc
        rcases List.mem_cons.mp hc with rfl | hc
        · exact hp
        · exact hr c hc
      · intro c hc
        rcases List.mem_cons.mp hc with rfl | hc
        · exact hq
        · exact ih hr c hc

theorem memFrom_tdel {n p : Nat} {m : List Host.Cell} (h : memFrom n m) : memFrom n (tdel m p) := by
  induction m with
  | nil => exact h
  | cons c r ih =>
    obtain ⟨q, x⟩ := c
    have hr : memFrom n r := fun c hc => h c (List.mem_cons_of_mem _ hc)
    unfold tdel
    split
    · exact ih hr
    · intro c hc
      rcases List.mem_cons.mp hc with rfl | hc
      · exact h (q, x) (by simp)
      · exact ih hr c hc

theorem memWf_tset {p : Nat} {b : Byte} {m : List Host.Cell} (h : memWf m = true) (hb : b ≠ unlistedByte) :
    memWf (tset m p b) = true := by
  induction m with
  | nil => simp [tset, memWf, hb]
  | cons c r ih =>
    obtain ⟨q, x⟩ := c
    obtain ⟨hx, hf, hr⟩ := memWf_cons.mp h
    unfold tset
    split
    · next hlt =>
      refine memWf_cons.mpr ⟨hb, ?_, h⟩
      intro c hc
      rcases List.mem_cons.mp hc with rfl | hc
      · exact hlt
      · have := hf c hc; omega
    · split
      · next e => subst e; exact memWf_cons.mpr ⟨hb, hf, hr⟩
      · next hlt hne => exact memWf_cons.mpr ⟨hx, memFrom_tset hf (by omega), ih hr⟩

theorem memWf_tdel {p : Nat} {m : List Host.Cell} (h : memWf m = true) : memWf (tdel m p) = true := by
  induction m with
  | nil => exact h
  | cons c r ih =>
    obtain ⟨q, x⟩ := c
    obtain ⟨hx, hf, hr⟩ := memWf_cons.mp h
    unfold tdel
    split
    · exact ih hr
    · exact memWf_cons.mpr ⟨hx, memFrom_tdel hf, ih hr⟩

/-- Writing one byte keeps the canonical form. -/
theorem memSet_wf {p : Nat} {b : Byte} {m : List Host.Cell} (h : memWf m = true) : memWf (memSet m p b) = true := by
  unfold memSet
  split
  · exact memWf_tdel h
  · next hb => exact memWf_tset h hb

/-- Writing bytes keeps the canonical form. -/
theorem writeMem_wf {bs : List Byte} {p : Nat} {m : List Host.Cell} (h : memWf m = true) : memWf (writeMem m p bs) = true := by
  induction bs generalizing m p with
  | nil => exact h
  | cons b r ih => exact ih (memSet_wf h)

theorem memWf_filter {m : List Host.Cell} (f : Host.Cell → Bool) (h : memWf m = true) : memWf (m.filter f) = true := by
  induction m with
  | nil => exact h
  | cons c r ih =>
    obtain ⟨q, x⟩ := c
    obtain ⟨hx, hf, hr⟩ := memWf_cons.mp h
    rw [List.filter_cons]
    split
    · exact memWf_cons.mpr ⟨hx, fun c hc => hf c (List.mem_filter.mp hc).1, ih hr⟩
    · exact ih hr

/-- Setting a range to zero keeps the canonical form. -/
theorem zeroMem_wf {p n : Nat} {m : List Host.Cell} (h : memWf m = true) : memWf (zeroMem m p n) = true := memWf_filter _ h

theorem reset_mem_wf : memWf State.reset.mem = true := rfl

/-! ### Reading after writing -/

/-- A byte reads as it was written. -/
theorem memGet_memSet_same {p : Nat} {b : Byte} {m : List Host.Cell} : memGet (memSet m p b) p = b := by
  unfold memGet memSet
  split
  · next e => subst e; simp [tgetD, tget_tdel_same]
  · exact tgetD_tset_same _ _ _ _

/-- A write leaves every other byte alone. -/
theorem memGet_memSet_other {p q : Nat} {b : Byte} {m : List Host.Cell} (h : q ≠ p) :
    memGet (memSet m p b) q = memGet m q := by
  unfold memGet memSet
  split
  · simp [tgetD, tget_tdel_other m h]
  · exact tgetD_tset_other _ _ _ h

/-- A write of bytes leaves every byte outside them alone. -/
theorem memGet_writeMem_other {bs : List Byte} {p q : Nat} {m : List Host.Cell} (h : q < p ∨ p + bs.length ≤ q) :
    memGet (writeMem m p bs) q = memGet m q := by
  induction bs generalizing m p with
  | nil => rfl
  | cons b r ih =>
    simp only [writeMem, List.length_cons] at h ⊢
    rw [ih (by omega), memGet_memSet_other (by omega)]

/-- Bytes read as they were written. -/
theorem readMem_writeMem {bs : List Byte} {p : Nat} {m : List Host.Cell} :
    readMem (writeMem m p bs) p bs.length = bs := by
  induction bs generalizing m p with
  | nil => rfl
  | cons b r ih =>
    simp only [writeMem, List.length_cons, readMem]
    rw [ih, memGet_writeMem_other (by omega), memGet_memSet_same]

theorem readMem_congr {m m' : List Host.Cell} {p n : Nat} (h : ∀ q, p ≤ q → q < p + n → memGet m q = memGet m' q) :
    readMem m p n = readMem m' p n := by
  induction n generalizing p with
  | zero => rfl
  | succ n ih =>
    simp only [readMem]
    rw [h p (by omega) (by omega), ih fun q h1 h2 => h q (by omega) (by omega)]

theorem memGet_filter {m : List Host.Cell} (f : Nat → Bool) (q : Nat) :
    memGet (m.filter fun c => f c.1) q = if f q then memGet m q else unlistedByte := by
  induction m with
  | nil => simp [memGet, tgetD, tget]
  | cons c r ih =>
    obtain ⟨k, x⟩ := c
    simp only [memGet, tgetD] at ih ⊢
    rw [List.filter_cons]
    by_cases hk : k = q
    · subst hk
      by_cases hf : f k = true
      · simp [hf, tget]
      · simp only [hf, Bool.false_eq_true, if_false] at ih ⊢
        exact ih
    · split
      · simp only [tget, hk, if_false]; exact ih
      · simp only [tget, hk, if_false]; exact ih

/-- A range set to zero reads zero, and the rest as before. -/
theorem memGet_zeroMem (m : List Host.Cell) (p n q : Nat) :
    memGet (zeroMem m p n) q = if q < p ∨ p + n ≤ q then memGet m q else unlistedByte := by
  have h := memGet_filter (m := m) (fun c => decide (c < p) || decide (p + n ≤ c)) q
  simp only [Bool.or_eq_true, decide_eq_true_eq] at h
  simpa [zeroMem] using h

/-! ### The named operations keep the canonical form -/

theorem State.wakeSeg_wf {s : State} (c g : Nat) (h : memWf s.mem = true) : memWf (s.wakeSeg c g).mem = true := by
  unfold State.wakeSeg
  simp only [State.updCluster_mem]
  split
  · exact h
  · exact zeroMem_wf h

theorem State.wakeRange_wf {s : State} (p n : Nat) (h : memWf s.mem = true) : memWf (s.wakeRange p n).mem = true := by
  unfold State.wakeRange
  generalize segsOf p n = l
  induction l generalizing s with
  | nil => exact h
  | cons q r ih => exact ih (State.wakeSeg_wf _ _ h)

@[simp] theorem State.noteWrite_mem (s : State) (p n : Nat) : (s.noteWrite p n).mem = s.mem := rfl

/-- A store keeps the canonical form. -/
theorem State.store_wf {s : State} (p : Nat) (bs : List Byte) (h : memWf s.mem = true) : memWf (s.store p bs).mem = true := by
  unfold State.store
  split
  · exact h
  · exact writeMem_wf (State.wakeRange_wf _ _ h)

/-- Replacing bytes keeps the canonical form. -/
theorem State.replaceMem_wf {s : State} (p : Nat) (bs : List Byte) (h : memWf s.mem = true) :
    memWf (s.replaceMem p bs).mem = true := by
  unfold State.replaceMem
  split
  · exact h
  · exact writeMem_wf (State.wakeRange_wf _ _ h)

@[simp] theorem State.killSeg_mem (s : State) (c g : Nat) : (s.killSeg c g).mem = s.mem := rfl

theorem State.touchBanks_mem (s : State) (p n : Nat) : (s.touchBanks p n).mem = s.mem := by
  unfold State.touchBanks
  generalize segsOf p n = l
  induction l generalizing s with
  | nil => rfl
  | cons q r ih => simp only [List.foldl_cons]; rw [ih]; split <;> rfl

end Sys2Proof.Machine
end

