-- ==== Sys2Proof/Laws/PerInstr.lean ====
section
/-! SUPPORT. The primary opcode of every instruction's word (R35, R41, R351). -/

namespace Sys2Proof.Laws.WordForm

/-- The primary opcode of a constructor's row; none for a step without an encoding. A word of the control extension has
zeros there (R351). -/
def primary : Instr → Option Nat
  | .nop => some 0x00
  | .iadd _ _ _ _ _ => some 0x01
  | .isub _ _ _ _ _ => some 0x02
  | .imul _ _ _ _ _ => some 0x03
  | .imulh _ _ _ _ _ => some 0x04
  | .imad _ _ _ _ _ => some 0x05
  | .imin _ _ _ _ _ => some 0x06
  | .imax _ _ _ _ _ => some 0x07
  | .iabs _ _ _ _ => some 0x08
  | .and _ _ _ _ _ => some 0x09
  | .or _ _ _ _ _ => some 0x0A
  | .xor _ _ _ _ _ => some 0x0B
  | .andn _ _ _ _ _ => some 0x0C
  | .shl _ _ _ _ _ => some 0x0D
  | .shr _ _ _ _ _ => some 0x0E
  | .sar _ _ _ _ _ => some 0x0F
  | .rot _ _ _ _ _ => some 0x10
  | .popc _ _ _ _ => some 0x11
  | .clz _ _ _ _ => some 0x12
  | .ctz _ _ _ _ => some 0x13
  | .brev _ _ _ _ => some 0x14
  | .bfe _ _ _ _ _ => some 0x15
  | .bfi _ _ _ _ _ => some 0x16
  | .icmp _ _ _ _ _ _ => some 0x17
  | .lea _ _ _ _ _ => some 0x18
  | .mov _ _ _ _ => some 0x19
  | .movi _ _ _ => some 0x1A
  | .iaddi _ _ _ _ => some 0x1B
  | .wid _ _ _ => some 0x1C
  | .cvta _ _ _ _ => some 0x1D
  | .isap _ _ _ _ => some 0x1E
  | .plop _ _ _ _ _ => some 0x1F
  | .fadd _ _ _ _ _ => some 0x20
  | .fsub _ _ _ _ _ => some 0x21
  | .fmul _ _ _ _ _ => some 0x22
  | .ffma _ _ _ _ _ => some 0x23
  | .hfma2 _ _ _ _ _ => some 0x24
  | .fmin _ _ _ _ _ => some 0x25
  | .fmax _ _ _ _ _ => some 0x26
  | .fcmp _ _ _ _ _ _ => some 0x27
  | .frcp _ _ _ _ => some 0x28
  | .frsq _ _ _ _ => some 0x29
  | .fsqrt _ _ _ _ => some 0x2A
  | .fex2 _ _ _ _ => some 0x2B
  | .flg2 _ _ _ _ => some 0x2C
  | .fsin _ _ _ _ => some 0x2D
  | .fcos _ _ _ _ => some 0x2E
  | .ftanh _ _ _ _ => some 0x2F
  | .frnd _ _ _ _ => some 0x30
  | .cvt _ _ _ _ _ => some 0x31
  | .cvtDxb _ _ _ _ _ => some 0x31
  | .qpk _ _ _ _ _ => some 0x32
  | .qupk _ _ _ _ _ => some 0x33
  | .mort _ _ _ _ => some 0x34
  | .bbu _ _ _ _ => some 0x35
  | .bra _ _ => some 0x38
  | .call _ _ => some 0x39
  | .brx _ _ => some 0x3A
  | .reform _ _ => some 0x3B
  | .exit _ => some 0x3C
  | .trap _ _ _ => some 0x3D
  | .bkpt _ => some 0x3E
  | .bkptStop _ => some 0x3E
  | .perm _ _ _ _ _ => some 0x40
  | .ballot _ _ _ _ => some 0x41
  | .ballotP _ _ _ => some 0x41
  | .vote _ _ _ _ _ => some 0x42
  | .xld _ _ _ _ => some 0x43
  | .xst _ _ _ _ => some 0x44
  | .qinit _ _ _ => some 0x45
  | .qstat _ _ _ => some 0x46
  | .qclose _ _ => some 0x47
  | .sdrop _ _ _ => some 0x48
  | .ld _ _ _ _ _ _ => some 0x50
  | .lds _ _ _ _ _ _ => some 0x51
  | .ldq _ _ _ _ _ => some 0x52
  | .st _ _ _ _ _ _ => some 0x53
  | .stq _ _ _ _ _ => some 0x54
  | .atomAdd _ _ _ _ _ => some 0x55
  | .atomMin _ _ _ _ _ => some 0x56
  | .atomMax _ _ _ _ _ => some 0x57
  | .atomAnd _ _ _ _ _ => some 0x58
  | .atomOr _ _ _ _ _ => some 0x59
  | .atomXor _ _ _ _ _ => some 0x5A
  | .atomXchg _ _ _ _ _ => some 0x5B
  | .atomCas _ _ _ _ _ => some 0x5C
  | .atomFadd _ _ _ _ _ => some 0x5D
  | .fence _ _ => some 0x5E
  | .drain _ _ => some 0x5F
  | .watch _ _ _ => some 0x60
  | .waitw _ _ _ => some 0x61
  | .prf _ _ _ _ => some 0x62
  | .rvinit _ _ _ => some 0x63
  | .arrive _ _ => some 0x64
  | .waitrv _ _ => some 0x65
  | .cvinit _ _ _ => some 0x66
  | .msign _ _ => some 0x67
  | .post _ _ _ _ => some 0x68
  | .work _ _ => some 0x69
  | .workTry _ _ => some 0x69
  | .susp _ _ _ _ => some 0x6A
  | .suspNow _ _ => some 0x6A
  | .done _ => some 0x6B
  | .tdld _ _ _ _ => some 0x6C
  | .tdinv _ _ => some 0x6D
  | .marm _ _ _ => some 0x6E
  | .mzero _ _ _ => some 0x6F
  | .mzeroRel _ _ _ => some 0x6F
  | .mld _ _ _ _ => some 0x70
  | .mst _ _ _ _ => some 0x71
  | .mcf _ _ _ => some 0x72
  | .mcf2 _ _ _ => some 0x72
  | .mpoly _ _ _ => some 0x73
  | .miter _ _ _ _ => some 0x74
  | .tail _ _ _ => some 0x75
  | .waittl _ _ _ => some 0x76
  | .tlrd _ _ _ => some 0x77
  | .tex _ _ _ _ => some 0x78
  | .texf _ _ _ _ => some 0x79
  | .rq _ _ _ _ => some 0x7A
  | .pixw _ _ _ => some 0x7B
  | .sysr _ _ _ => some 0x7C
  | .sysw _ _ _ => some 0x7D
  | .tlbi _ _ _ => some 0x7E
  | .himm _ => some 0x7F
  | .hmod _ _ _ _ _ _ _ _ => some 0x7F
  | .hsch _ _ => some 0x7F
  | .hdropLo _ => some 0x7F
  | .hdropHi _ => some 0x7F
  | .hdropX _ _ => some 0x7F
  | .cxRfetch _ _ => some 0x00
  | .cxBfx _ _ _ => some 0x00
  | .cxSwait _ _ _ => some 0x00
  | .cxDisp _ _ => some 0x00
  | .pendingValueFill _ => none
  | .writeComplete _ => none
  | .binDraw _ => none
  | .waitwTimeout _ => none
  | .watchdog _ => none
  | .regBlockRetention _ _ _ _ => none
  | .scratchBankRetention _ _ => none
  | .readyQueueScan => none
  | .teamRetire _ => none
  | .cardRetirement _ => none
  | .cardDeadline _ => none
  | .patrolScrub _ _ _ => none
  | .remotePost _ => none
  | .continuationDelivery _ _ => none
  | .continuationResume _ => none
  | .descriptorLoadComplete _ => none
  | .issueLatchEnter _ => none
  | .bruinPass _ => none
  | .chainEnable _ _ _ => none
  | .chainDisable _ _ _ => none
  | .chainConfigWrite _ _ _ => none
  | .chtailWrite _ _ _ => none
  | .chainEntryAccept _ _ => none
  | .chainNop _ _ => none
  | .copy _ _ => none
  | .raw _ _ => none
  | .fill _ _ => none
  | .gather _ _ => none
  | .redadd _ _ => none
  | .chainWait _ _ => none
  | .copyBurst _ => none
  | .chainEntryComplete _ _ => none
  | .binnerJob _ _ => none
  | .rasterStrip _ => none
  | .quadRecordPush _ => none
  | .rayFinish _ => none
  | .encoderTileRow _ => none
  | .bsrdWrite _ _ => none
  | .displayLine _ => none
  | .dpLinkLoss _ => none
  | .hotPlug _ _ => none
  | .streamAdmit _ => none
  | .streamStop _ => none
  | .streamFrameLimit _ => none
  | .actStart _ => none
  | .actRetire _ => none
  | .outputCardLaunch _ => none
  | .actAbandon _ => none
  | .sync _ _ => none
  | .followUp _ _ _ => none
  | .delayReq => none
  | .delayResp _ _ _ => none
  | .announce _ _ => none
  | .holdover => none
  | .timensRead => none
  | .bankFlipLand _ => none
  | .bankFlipIssuable _ => none
  | .timeSliceExpiry _ => none
  | .contextSwapOut _ => none
  | .contextRestore _ _ => none
  | .trapRecordPost _ => none
  | .tqheadWrite _ _ => none
  | .replay _ => none
  | .resume _ _ _ => none
  | .killteam _ _ _ => none
  | .killcard _ _ => none
  | .unfreeze _ => none
  | .ownershipWrite _ _ _ => none
  | .registerWrite _ _ _ => none
  | .kickWrite _ _ => none
  | .hostQueueEnable _ _ => none
  | .hostQueueDisable _ _ => none
  | .packetFetch _ => none
  | .packetNop _ => none
  | .launch _ => none
  | .graph _ => none
  | .wait _ => none
  | .signal _ => none
  | .flush _ => none
  | .fetchfence _ => none
  | .traceSyncRecord _ => none
  | .trdWrite _ _ => none
  | .preciseStopRequest _ => none
  | .preciseStop _ => none
  | .preciseStopRelease _ => none
  | .counterSample => none
  | .srdWrite _ => none
  | .captureStart _ => none
  | .captureStop _ => none
  | .energyLowRead _ => none
  | .powerGrant _ => none
  | .budgetSend _ _ => none
  | .budgetMessage _ _ _ _ => none
  | .filler _ _ => none
  | .powerKill => none
  | .linkModuleFail _ => none
  | .hostTimeout _ => none
  | .boot => none
  | .attestationRequest _ _ => none
  | .firmwareSwitch _ => none
  | .clusterReplace _ => none
  | .lp6Retrain _ => none
  | .streamReconfigure _ => none
  | .ingressRequest _ => none
  | .remoteResponse _ _ => none
  | .remoteTimeout _ => none
  | .portLossOfLock _ => none
  | .portRetrained _ => none
  | .illegalOpcode _ => none
  | .hschDelayEnd _ => none
  | .partFailure _ => none
  | .hostMemoryAccess _ _ _ => none
  | .ucieModuleRetrained _ => none
  | .dpLinkTrained _ => none

/-- The top seven bits of an instruction's word are the primary opcode of its row. -/
def Statement (i : Instr) : Prop := (encode i).map (fun w => natAt w 25 7) = primary i

theorem packWord_op {op low : Nat} (ho : op < 128) (hl : low < 2 ^ 25) : natAt (packWord op low) 25 7 = op := by
  simp only [natAt, packWord, BitVec.toNat_ofNat]
  omega

theorem encR_op {op g d a b t : Nat} (hop : op < 128) (hg : g < 8) (hd : d < 64) (ha : a < 128) (hb : b < 128) (ht : t < 4) :
    natAt (encR op g d a b t) 25 7 = op := packWord_op hop (by omega)

theorem encC_op {op g k p a b t : Nat} (hop : op < 128) (hg : g < 8) (hk : k < 8) (hp : p < 8) (ha : a < 128) (hb : b < 128) (ht : t < 4) :
    natAt (encC op g k p a b t) 25 7 = op := packWord_op hop (by omega)

theorem encI_op {op g d a i : Nat} (hop : op < 128) (hg : g < 8) (hd : d < 64) (ha : a < 128) (hi : i < 512) :
    natAt (encI op g d a i) 25 7 = op := packWord_op hop (by omega)

theorem encR3_op {op g a b c t : Nat} (hop : op < 128) (hg : g < 8) (ha : a < 128) (hb : b < 128) (hc : c < 128) (ht : t < 2) :
    natAt (encR3 op g a b c t) 25 7 = op := packWord_op hop (by omega)

theorem encP_op {op g d a b l : Nat} (hop : op < 128) (hg : g < 8) (hd : d < 8) (ha : a < 8) (hb : b < 8) (hl : l < 16) :
    natAt (encP op g d a b l) 25 7 = op := packWord_op hop (by omega)

theorem encM_op {op g x a o z r : Nat} (hop : op < 128) (hg : g < 8) (hx : x < 128) (ha : a < 128) (ho : o < 16) (hz : z < 4) (hr : r < 4) :
    natAt (encM op g x a o z r) 25 7 = op := packWord_op hop (by omega)

theorem encXS_op {op g a b o : Nat} (hop : op < 128) (hg : g < 8) (ha : a < 128) (hb : b < 128) (ho : o < 256) :
    natAt (encXS op g a b o) 25 7 = op := packWord_op hop (by omega)

theorem encB_op {op g o : Nat} (hop : op < 128) (hg : g < 8) (ho : o < 4194304) :
    natAt (encB op g o) 25 7 = op := packWord_op hop (by omega)

theorem encH_op {k p : Nat} (hk : k < 8) (hp : p < 4194304) : natAt (encH k p) 25 7 = 0x7F := packWord_op (by decide)
    (by omega)

theorem encCx_op {f r a d : Nat} (hf : f < 8) (hr : r < 32) (ha : a < 32) (hd : d < 32) :
    natAt (encCx f r a d) 25 7 = 0 := by
  simp only [natAt, encCx, BitVec.toNat_ofNat]
  omega

theorem nop : Statement .nop := rfl

theorem iadd : ∀ g d a b t, Statement (.iadd g d a b t) := fun g d a b t =>
  congrArg some <| encR_op (by decide) (by have := g.isLt; omega) (by have := d.isLt; omega) (by have := a.isLt; omega)
    (by have := b.isLt; omega) (by have := t.isLt; omega)

theorem isub : ∀ g d a b t, Statement (.isub g d a b t) := fun g d a b t =>
  congrArg some <| encR_op (by decide) (by have := g.isLt; omega) (by have := d.isLt; omega) (by have := a.isLt; omega)
    (by have := b.isLt; omega) (by have := t.isLt; omega)

theorem imul : ∀ g d a b t, Statement (.imul g d a b t) := fun g d a b t =>
  congrArg some <| encR_op (by decide) (by have := g.isLt; omega) (by have := d.isLt; omega) (by have := a.isLt; omega)
    (by have := b.isLt; omega) (by have := t.isLt; omega)

theorem imulh : ∀ g d a b t, Statement (.imulh g d a b t) := fun g d a b t =>
  congrArg some <| encR_op (by decide) (by have := g.isLt; omega) (by have := d.isLt; omega) (by have := a.isLt; omega)
    (by have := b.isLt; omega) (by have := t.isLt; omega)

theorem imad : ∀ g a b c t, Statement (.imad g a b c t) := fun g a b c t =>
  congrArg some <| encR3_op (by decide) (by have := g.isLt; omega) (by have := a.isLt; omega) (by have := b.isLt; omega)
    (by have := c.isLt; omega) (by have := t.isLt; omega)

theorem imin : ∀ g d a b t, Statement (.imin g d a b t) := fun g d a b t =>
  congrArg some <| encR_op (by decide) (by have := g.isLt; omega) (by have := d.isLt; omega) (by have := a.isLt; omega)
    (by have := b.isLt; omega) (by have := t.isLt; omega)

theorem imax : ∀ g d a b t, Statement (.imax g d a b t) := fun g d a b t =>
  congrArg some <| encR_op (by decide) (by have := g.isLt; omega) (by have := d.isLt; omega) (by have := a.isLt; omega)
    (by have := b.isLt; omega) (by have := t.isLt; omega)

theorem iabs : ∀ g d a t, Statement (.iabs g d a t) := fun g d a t =>
  congrArg some <| encR_op (by decide) (by have := g.isLt; omega) (by have := d.isLt; omega) (by have := a.isLt; omega)
    (by decide) (by have := t.isLt; omega)

theorem and : ∀ g d a b t, Statement (.and g d a b t) := fun g d a b t =>
  congrArg some <| encR_op (by decide) (by have := g.isLt; omega) (by have := d.isLt; omega) (by have := a.isLt; omega)
    (by have := b.isLt; omega) (by have h0 := t.isLt; omega)

theorem or : ∀ g d a b t, Statement (.or g d a b t) := fun g d a b t =>
  congrArg some <| encR_op (by decide) (by have := g.isLt; omega) (by have := d.isLt; omega) (by have := a.isLt; omega)
    (by have := b.isLt; omega) (by have h0 := t.isLt; omega)

theorem xor : ∀ g d a b t, Statement (.xor g d a b t) := fun g d a b t =>
  congrArg some <| encR_op (by decide) (by have := g.isLt; omega) (by have := d.isLt; omega) (by have := a.isLt; omega)
    (by have := b.isLt; omega) (by have h0 := t.isLt; omega)

theorem andn : ∀ g d a b t, Statement (.andn g d a b t) := fun g d a b t =>
  congrArg some <| encR_op (by decide) (by have := g.isLt; omega) (by have := d.isLt; omega) (by have := a.isLt; omega)
    (by have := b.isLt; omega) (by have h0 := t.isLt; omega)

theorem shl : ∀ g d a b t, Statement (.shl g d a b t) := fun g d a b t =>
  congrArg some <| encR_op (by decide) (by have := g.isLt; omega) (by have := d.isLt; omega) (by have := a.isLt; omega)
    (by have := b.isLt; omega) (by have h0 := t.isLt; omega)

theorem shr : ∀ g d a b t, Statement (.shr g d a b t) := fun g d a b t =>
  congrArg some <| encR_op (by decide) (by have := g.isLt; omega) (by have := d.isLt; omega) (by have := a.isLt; omega)
    (by have := b.isLt; omega) (by have h0 := t.isLt; omega)

theorem sar : ∀ g d a b t, Statement (.sar g d a b t) := fun g d a b t =>
  congrArg some <| encR_op (by decide) (by have := g.isLt; omega) (by have := d.isLt; omega) (by have := a.isLt; omega)
    (by have := b.isLt; omega) (by have h0 := t.isLt; omega)

theorem rot : ∀ g d a b t, Statement (.rot g d a b t) := fun g d a b t =>
  congrArg some <| encR_op (by decide) (by have := g.isLt; omega) (by have := d.isLt; omega) (by have := a.isLt; omega)
    (by have := b.isLt; omega) (by have h0 := t.isLt; omega)

theorem popc : ∀ g d a t, Statement (.popc g d a t) := fun g d a t =>
  congrArg some <| encR_op (by decide) (by have := g.isLt; omega) (by have := d.isLt; omega) (by have := a.isLt; omega)
    (by decide) (by have h0 := t.isLt; omega)

theorem clz : ∀ g d a t, Statement (.clz g d a t) := fun g d a t =>
  congrArg some <| encR_op (by decide) (by have := g.isLt; omega) (by have := d.isLt; omega) (by have := a.isLt; omega)
    (by decide) (by have h0 := t.isLt; omega)

theorem ctz : ∀ g d a t, Statement (.ctz g d a t) := fun g d a t =>
  congrArg some <| encR_op (by decide) (by have := g.isLt; omega) (by have := d.isLt; omega) (by have := a.isLt; omega)
    (by decide) (by have h0 := t.isLt; omega)

theorem brev : ∀ g d a t, Statement (.brev g d a t) := fun g d a t =>
  congrArg some <| encR_op (by decide) (by have := g.isLt; omega) (by have := d.isLt; omega) (by have := a.isLt; omega)
    (by decide) (by have h0 := t.isLt; omega)

theorem bfe : ∀ g d a b t, Statement (.bfe g d a b t) := fun g d a b t =>
  congrArg some <| encR_op (by decide) (by have := g.isLt; omega) (by have := d.isLt; omega) (by have := a.isLt; omega)
    (by have := b.isLt; omega) (by have := t.isLt; omega)

theorem bfi : ∀ g a b c t, Statement (.bfi g a b c t) := fun g a b c t =>
  congrArg some <| encR3_op (by decide) (by have := g.isLt; omega) (by have := a.isLt; omega) (by have := b.isLt; omega)
    (by have := c.isLt; omega) (by have := t.isLt; omega)

theorem icmp : ∀ g k p a b t, Statement (.icmp g k p a b t) := fun g k p a b t =>
  congrArg some <| encC_op (by decide) (by have := g.isLt; omega) (by have := k.isLt; omega) (by have := p.isLt; omega)
    (by have := a.isLt; omega) (by have := b.isLt; omega) (by have := t.isLt; omega)

theorem lea : ∀ g d a b t, Statement (.lea g d a b t) := fun g d a b t =>
  congrArg some <| encR_op (by decide) (by have := g.isLt; omega) (by have := d.isLt; omega) (by have := a.isLt; omega)
    (by have := b.isLt; omega) (by have := t.isLt; omega)

theorem mov : ∀ g d a t, Statement (.mov g d a t) := fun g d a t =>
  congrArg some <| encR_op (by decide) (by have := g.isLt; omega) (by have := d.isLt; omega) (by have := a.isLt; omega)
    (by decide) (by have h0 := t.isLt; omega)

theorem movi : ∀ g d ix, Statement (.movi g d ix) := fun g d ix =>
  congrArg some <| encI_op (by decide) (by have := g.isLt; omega) (by have := d.isLt; omega) (by decide)
    (by have := ix.isLt; omega)

theorem iaddi : ∀ g d a ix, Statement (.iaddi g d a ix) := fun g d a ix =>
  congrArg some <| encI_op (by decide) (by have := g.isLt; omega) (by have := d.isLt; omega) (by have := a.isLt; omega)
    (by have := ix.isLt; omega)

theorem wid : ∀ g d subw, Statement (.wid g d subw) := fun g d subw =>
  congrArg some <| encR_op (by decide) (by have := g.isLt; omega) (by have := d.isLt; omega) (by decide)
    (by have := subw.isLt; omega) (by decide)

theorem cvta : ∀ g d a subw, Statement (.cvta g d a subw) := fun g d a subw =>
  congrArg some <| encR_op (by decide) (by have := g.isLt; omega) (by have := d.isLt; omega) (by have := a.isLt; omega)
    (by have := subw.isLt; omega) (by decide)

theorem isap : ∀ g k p a, Statement (.isap g k p a) := fun g k p a =>
  congrArg some <| encC_op (by decide) (by have := g.isLt; omega) (by have := k.isLt; omega) (by have := p.isLt; omega)
    (by have := a.isLt; omega) (by decide) (by decide)

theorem plop : ∀ g d a b l, Statement (.plop g d a b l) := fun g d a b l =>
  congrArg some <| encP_op (by decide) (by have := g.isLt; omega) (by have := d.isLt; omega) (by have := a.isLt; omega)
    (by have := b.isLt; omega) (by have := l.isLt; omega)

theorem fadd : ∀ g d a b t, Statement (.fadd g d a b t) := fun g d a b t =>
  congrArg some <| encR_op (by decide) (by have := g.isLt; omega) (by have := d.isLt; omega) (by have := a.isLt; omega)
    (by have := b.isLt; omega) (by have := t.isLt; omega)

theorem fsub : ∀ g d a b t, Statement (.fsub g d a b t) := fun g d a b t =>
  congrArg some <| encR_op (by decide) (by have := g.isLt; omega) (by have := d.isLt; omega) (by have := a.isLt; omega)
    (by have := b.isLt; omega) (by have := t.isLt; omega)

theorem fmul : ∀ g d a b t, Statement (.fmul g d a b t) := fun g d a b t =>
  congrArg some <| encR_op (by decide) (by have := g.isLt; omega) (by have := d.isLt; omega) (by have := a.isLt; omega)
    (by have := b.isLt; omega) (by have := t.isLt; omega)

theorem ffma : ∀ g a b c t, Statement (.ffma g a b c t) := fun g a b c t =>
  congrArg some <| encR3_op (by decide) (by have := g.isLt; omega) (by have := a.isLt; omega) (by have := b.isLt; omega)
    (by have := c.isLt; omega) (by have := t.isLt; omega)

theorem hfma2 : ∀ g a b c t, Statement (.hfma2 g a b c t) := fun g a b c t =>
  congrArg some <| encR3_op (by decide) (by have := g.isLt; omega) (by have := a.isLt; omega) (by have := b.isLt; omega)
    (by have := c.isLt; omega) (by have := t.isLt; omega)

theorem fmin : ∀ g d a b t, Statement (.fmin g d a b t) := fun g d a b t =>
  congrArg some <| encR_op (by decide) (by have := g.isLt; omega) (by have := d.isLt; omega) (by have := a.isLt; omega)
    (by have := b.isLt; omega) (by have := t.isLt; omega)

theorem fmax : ∀ g d a b t, Statement (.fmax g d a b t) := fun g d a b t =>
  congrArg some <| encR_op (by decide) (by have := g.isLt; omega) (by have := d.isLt; omega) (by have := a.isLt; omega)
    (by have := b.isLt; omega) (by have := t.isLt; omega)

theorem fcmp : ∀ g k p a b t, Statement (.fcmp g k p a b t) := fun g k p a b t =>
  congrArg some <| encC_op (by decide) (by have := g.isLt; omega) (by have := k.isLt; omega) (by have := p.isLt; omega)
    (by have := a.isLt; omega) (by have := b.isLt; omega) (by have := t.isLt; omega)

theorem frcp : ∀ g d a t, Statement (.frcp g d a t) := fun g d a t =>
  congrArg some <| encR_op (by decide) (by have := g.isLt; omega) (by have := d.isLt; omega) (by have := a.isLt; omega)
    (by decide) (by have := t.isLt; omega)

theorem frsq : ∀ g d a t, Statement (.frsq g d a t) := fun g d a t =>
  congrArg some <| encR_op (by decide) (by have := g.isLt; omega) (by have := d.isLt; omega) (by have := a.isLt; omega)
    (by decide) (by have := t.isLt; omega)

theorem fsqrt : ∀ g d a t, Statement (.fsqrt g d a t) := fun g d a t =>
  congrArg some <| encR_op (by decide) (by have := g.isLt; omega) (by have := d.isLt; omega) (by have := a.isLt; omega)
    (by decide) (by have := t.isLt; omega)

theorem fex2 : ∀ g d a t, Statement (.fex2 g d a t) := fun g d a t =>
  congrArg some <| encR_op (by decide) (by have := g.isLt; omega) (by have := d.isLt; omega) (by have := a.isLt; omega)
    (by decide) (by have := t.isLt; omega)

theorem flg2 : ∀ g d a t, Statement (.flg2 g d a t) := fun g d a t =>
  congrArg some <| encR_op (by decide) (by have := g.isLt; omega) (by have := d.isLt; omega) (by have := a.isLt; omega)
    (by decide) (by have := t.isLt; omega)

theorem fsin : ∀ g d a t, Statement (.fsin g d a t) := fun g d a t =>
  congrArg some <| encR_op (by decide) (by have := g.isLt; omega) (by have := d.isLt; omega) (by have := a.isLt; omega)
    (by decide) (by have := t.isLt; omega)

theorem fcos : ∀ g d a t, Statement (.fcos g d a t) := fun g d a t =>
  congrArg some <| encR_op (by decide) (by have := g.isLt; omega) (by have := d.isLt; omega) (by have := a.isLt; omega)
    (by decide) (by have := t.isLt; omega)

theorem ftanh : ∀ g d a t, Statement (.ftanh g d a t) := fun g d a t =>
  congrArg some <| encR_op (by decide) (by have := g.isLt; omega) (by have := d.isLt; omega) (by have := a.isLt; omega)
    (by decide) (by have := t.isLt; omega)

theorem frnd : ∀ g d a t, Statement (.frnd g d a t) := fun g d a t =>
  congrArg some <| encR_op (by decide) (by have := g.isLt; omega) (by have := d.isLt; omega) (by have := a.isLt; omega)
    (by decide) (by have := t.isLt; omega)

theorem cvt : ∀ g d a x y, Statement (.cvt g d a x y) := fun g d a x y =>
  congrArg some <| encR_op (by decide) (by have := g.isLt; omega) (by have := d.isLt; omega) (by have := a.isLt; omega)
    (by have h0 := x.isLt; have h1 := y.isLt; omega) (by decide)

theorem cvtDxb : ∀ g d a f subw, Statement (.cvtDxb g d a f subw) := fun g d a f subw =>
  congrArg some <| encR_op (by decide) (by have := g.isLt; omega) (by have := d.isLt; omega) (by have := a.isLt; omega)
    (by have h0 := f.isLt; have h1 := subw.isLt; omega) (by decide)

theorem qpk : ∀ g d a b t, Statement (.qpk g d a b t) := fun g d a b t =>
  congrArg some <| encR_op (by decide) (by have := g.isLt; omega) (by have := d.isLt; omega) (by have := a.isLt; omega)
    (by have := b.isLt; omega) (by have := t.isLt; omega)

theorem qupk : ∀ g d a b t, Statement (.qupk g d a b t) := fun g d a b t =>
  congrArg some <| encR_op (by decide) (by have := g.isLt; omega) (by have := d.isLt; omega) (by have := a.isLt; omega)
    (by have := b.isLt; omega) (by have := t.isLt; omega)

theorem mort : ∀ g d a b, Statement (.mort g d a b) := fun g d a b =>
  congrArg some <| encR_op (by decide) (by have := g.isLt; omega) (by have := d.isLt; omega) (by have := a.isLt; omega)
    (by have := b.isLt; omega) (by decide)

theorem bbu : ∀ g d a b, Statement (.bbu g d a b) := fun g d a b =>
  congrArg some <| encR_op (by decide) (by have := g.isLt; omega) (by have := d.isLt; omega) (by have := a.isLt; omega)
    (by have := b.isLt; omega) (by decide)

theorem bra : ∀ g o, Statement (.bra g o) := fun g o =>
  congrArg some <| encB_op (by decide) (by have := g.isLt; omega) (by have := o.isLt; omega)

theorem call : ∀ g o, Statement (.call g o) := fun g o =>
  congrArg some <| encB_op (by decide) (by have := g.isLt; omega) (by have := o.isLt; omega)

theorem brx : ∀ g a, Statement (.brx g a) := fun g a =>
  congrArg some <| encR_op (by decide) (by have := g.isLt; omega) (by decide) (by have := a.isLt; omega) (by decide)
    (by decide)

theorem reform : ∀ g o, Statement (.reform g o) := fun g o =>
  congrArg some <| encB_op (by decide) (by have := g.isLt; omega) (by have := o.isLt; omega)

theorem exit : ∀ g, Statement (.exit g) := fun g =>
  congrArg some <| encR_op (by decide) (by have := g.isLt; omega) (by decide) (by decide) (by decide) (by decide)

theorem trap : ∀ g a n, Statement (.trap g a n) := fun g a n =>
  congrArg some <| encI_op (by decide) (by have := g.isLt; omega) (by decide) (by have := a.isLt; omega)
    (by have := n.isLt; omega)

theorem bkpt : ∀ g, Statement (.bkpt g) := fun g =>
  congrArg some <| encR_op (by decide) (by have := g.isLt; omega) (by decide) (by decide) (by decide) (by decide)

theorem bkptStop : ∀ g, Statement (.bkptStop g) := fun g =>
  congrArg some <| encR_op (by decide) (by have := g.isLt; omega) (by decide) (by decide) (by decide) (by decide)

theorem perm : ∀ g d a b t, Statement (.perm g d a b t) := fun g d a b t =>
  congrArg some <| encR_op (by decide) (by have := g.isLt; omega) (by have := d.isLt; omega) (by have := a.isLt; omega)
    (by have := b.isLt; omega) (by have h0 := t.isLt; omega)

theorem ballot : ∀ g d a j, Statement (.ballot g d a j) := fun g d a j =>
  congrArg some <| encR_op (by decide) (by have := g.isLt; omega) (by have := d.isLt; omega) (by have := a.isLt; omega)
    (by have := j.isLt; omega) (by decide)

theorem ballotP : ∀ g d k, Statement (.ballotP g d k) := fun g d k =>
  congrArg some <| encR_op (by decide) (by have := g.isLt; omega) (by have := d.isLt; omega) (by decide)
    (by have h0 := k.isLt; omega) (by decide)

theorem vote : ∀ g k p a b, Statement (.vote g k p a b) := fun g k p a b =>
  congrArg some <| encC_op (by decide) (by have := g.isLt; omega) (by have := k.isLt; omega) (by have := p.isLt; omega)
    (by have := a.isLt; omega) (by have := b.isLt; omega) (by decide)

theorem xld : ∀ g d a ix, Statement (.xld g d a ix) := fun g d a ix =>
  congrArg some <| encI_op (by decide) (by have := g.isLt; omega) (by have := d.isLt; omega) (by have := a.isLt; omega)
    (by have := ix.isLt; omega)

theorem xst : ∀ g a b o, Statement (.xst g a b o) := fun g a b o =>
  congrArg some <| encXS_op (by decide) (by have := g.isLt; omega) (by have := a.isLt; omega) (by have := b.isLt; omega)
    (by have := o.isLt; omega)

theorem qinit : ∀ g a b, Statement (.qinit g a b) := fun g a b =>
  congrArg some <| encR_op (by decide) (by have := g.isLt; omega) (by decide) (by have := a.isLt; omega)
    (by have := b.isLt; omega) (by decide)

theorem qstat : ∀ g d n, Statement (.qstat g d n) := fun g d n =>
  congrArg some <| encR_op (by decide) (by have := g.isLt; omega) (by have := d.isLt; omega) (by decide)
    (by have := n.isLt; omega) (by decide)

theorem qclose : ∀ g n, Statement (.qclose g n) := fun g n =>
  congrArg some <| encR_op (by decide) (by have := g.isLt; omega) (by decide) (by decide) (by have := n.isLt; omega)
    (by decide)

theorem sdrop : ∀ g a b, Statement (.sdrop g a b) := fun g a b =>
  congrArg some <| encR_op (by decide) (by have := g.isLt; omega) (by decide) (by have := a.isLt; omega)
    (by have := b.isLt; omega) (by decide)

theorem ld : ∀ g d a o subw r, Statement (.ld g d a o subw r) := fun g d a o subw r =>
  congrArg some <| encM_op (by decide) (by have := g.isLt; omega) (by have := d.isLt; omega) (by have := a.isLt; omega)
    (by have := o.isLt; omega) (by have := subw.isLt; omega) (by have := r.isLt; omega)

theorem lds : ∀ g d a o subw r, Statement (.lds g d a o subw r) := fun g d a o subw r =>
  congrArg some <| encM_op (by decide) (by have := g.isLt; omega) (by have := d.isLt; omega) (by have := a.isLt; omega)
    (by have := o.isLt; omega) (by have := subw.isLt; omega) (by have := r.isLt; omega)

theorem ldq : ∀ g d a o r, Statement (.ldq g d a o r) := fun g d a o r =>
  congrArg some <| encM_op (by decide) (by have := g.isLt; omega) (by have := d.isLt; omega) (by have := a.isLt; omega)
    (by have := o.isLt; omega) (by decide) (by have := r.isLt; omega)

theorem st : ∀ g x a o subw r, Statement (.st g x a o subw r) := fun g x a o subw r =>
  congrArg some <| encM_op (by decide) (by have := g.isLt; omega) (by have := x.isLt; omega) (by have := a.isLt; omega)
    (by have := o.isLt; omega) (by have := subw.isLt; omega) (by have := r.isLt; omega)

theorem stq : ∀ g x a o r, Statement (.stq g x a o r) := fun g x a o r =>
  congrArg some <| encM_op (by decide) (by have := g.isLt; omega) (by have := x.isLt; omega) (by have := a.isLt; omega)
    (by have := o.isLt; omega) (by decide) (by have := r.isLt; omega)

theorem atomAdd : ∀ g d a b t, Statement (.atomAdd g d a b t) := fun g d a b t =>
  congrArg some <| encR_op (by decide) (by have := g.isLt; omega) (by have := d.isLt; omega) (by have := a.isLt; omega)
    (by have := b.isLt; omega) (by have := t.isLt; omega)

theorem atomMin : ∀ g d a b t, Statement (.atomMin g d a b t) := fun g d a b t =>
  congrArg some <| encR_op (by decide) (by have := g.isLt; omega) (by have := d.isLt; omega) (by have := a.isLt; omega)
    (by have := b.isLt; omega) (by have := t.isLt; omega)

theorem atomMax : ∀ g d a b t, Statement (.atomMax g d a b t) := fun g d a b t =>
  congrArg some <| encR_op (by decide) (by have := g.isLt; omega) (by have := d.isLt; omega) (by have := a.isLt; omega)
    (by have := b.isLt; omega) (by have := t.isLt; omega)

theorem atomAnd : ∀ g d a b t, Statement (.atomAnd g d a b t) := fun g d a b t =>
  congrArg some <| encR_op (by decide) (by have := g.isLt; omega) (by have := d.isLt; omega) (by have := a.isLt; omega)
    (by have := b.isLt; omega) (by have h0 := t.isLt; omega)

theorem atomOr : ∀ g d a b t, Statement (.atomOr g d a b t) := fun g d a b t =>
  congrArg some <| encR_op (by decide) (by have := g.isLt; omega) (by have := d.isLt; omega) (by have := a.isLt; omega)
    (by have := b.isLt; omega) (by have h0 := t.isLt; omega)

theorem atomXor : ∀ g d a b t, Statement (.atomXor g d a b t) := fun g d a b t =>
  congrArg some <| encR_op (by decide) (by have := g.isLt; omega) (by have := d.isLt; omega) (by have := a.isLt; omega)
    (by have := b.isLt; omega) (by have h0 := t.isLt; omega)

theorem atomXchg : ∀ g d a b t, Statement (.atomXchg g d a b t) := fun g d a b t =>
  congrArg some <| encR_op (by decide) (by have := g.isLt; omega) (by have := d.isLt; omega) (by have := a.isLt; omega)
    (by have := b.isLt; omega) (by have h0 := t.isLt; omega)

theorem atomCas : ∀ g a b c t, Statement (.atomCas g a b c t) := fun g a b c t =>
  congrArg some <| encR3_op (by decide) (by have := g.isLt; omega) (by have := a.isLt; omega) (by have := b.isLt; omega)
    (by have := c.isLt; omega) (by have := t.isLt; omega)

theorem atomFadd : ∀ g d a b t, Statement (.atomFadd g d a b t) := fun g d a b t =>
  congrArg some <| encR_op (by decide) (by have := g.isLt; omega) (by have := d.isLt; omega) (by have := a.isLt; omega)
    (by have := b.isLt; omega) (by have := t.isLt; omega)

theorem fence : ∀ g subw, Statement (.fence g subw) := fun g subw =>
  congrArg some <| encR_op (by decide) (by have := g.isLt; omega) (by decide) (by decide) (by have := subw.isLt; omega)
    (by decide)

theorem drain : ∀ g subw, Statement (.drain g subw) := fun g subw =>
  congrArg some <| encR_op (by decide) (by have := g.isLt; omega) (by decide) (by decide) (by have := subw.isLt; omega)
    (by decide)

theorem watch : ∀ g a b, Statement (.watch g a b) := fun g a b =>
  congrArg some <| encR_op (by decide) (by have := g.isLt; omega) (by decide) (by have := a.isLt; omega)
    (by have := b.isLt; omega) (by decide)

theorem waitw : ∀ g d a, Statement (.waitw g d a) := fun g d a =>
  congrArg some <| encR_op (by decide) (by have := g.isLt; omega) (by have := d.isLt; omega) (by have := a.isLt; omega)
    (by decide) (by decide)

theorem prf : ∀ g a o subw, Statement (.prf g a o subw) := fun g a o subw =>
  congrArg some <| encM_op (by decide) (by have := g.isLt; omega) (by decide) (by have := a.isLt; omega)
    (by have := o.isLt; omega) (by have := subw.isLt; omega) (by decide)

theorem rvinit : ∀ g ix a, Statement (.rvinit g ix a) := fun g ix a =>
  congrArg some <| encI_op (by decide) (by have := g.isLt; omega) (by have := ix.isLt; omega) (by have := a.isLt; omega)
    (by decide)

theorem arrive : ∀ g ix, Statement (.arrive g ix) := fun g ix =>
  congrArg some <| encI_op (by decide) (by have := g.isLt; omega) (by have := ix.isLt; omega) (by decide) (by decide)

theorem waitrv : ∀ g ix, Statement (.waitrv g ix) := fun g ix =>
  congrArg some <| encI_op (by decide) (by have := g.isLt; omega) (by have := ix.isLt; omega) (by decide) (by decide)

theorem cvinit : ∀ g ix a, Statement (.cvinit g ix a) := fun g ix a =>
  congrArg some <| encI_op (by decide) (by have := g.isLt; omega) (by have := ix.isLt; omega) (by have := a.isLt; omega)
    (by decide)

theorem msign : ∀ g ix, Statement (.msign g ix) := fun g ix =>
  congrArg some <| encI_op (by decide) (by have := g.isLt; omega) (by have := ix.isLt; omega) (by decide) (by decide)

theorem post : ∀ g d a b, Statement (.post g d a b) := fun g d a b =>
  congrArg some <| encR_op (by decide) (by have := g.isLt; omega) (by have := d.isLt; omega) (by have := a.isLt; omega)
    (by have := b.isLt; omega) (by decide)

theorem work : ∀ g d, Statement (.work g d) := fun g d =>
  congrArg some <| encR_op (by decide) (by have := g.isLt; omega) (by have := d.isLt; omega) (by decide) (by decide)
    (by decide)

theorem workTry : ∀ g d, Statement (.workTry g d) := fun g d =>
  congrArg some <| encR_op (by decide) (by have := g.isLt; omega) (by have := d.isLt; omega) (by decide) (by decide)
    (by decide)

theorem susp : ∀ g k a b, Statement (.susp g k a b) := fun g k a b =>
  congrArg some <| encR_op (by decide) (by have := g.isLt; omega) (by have := k.isLt; omega) (by have := a.isLt; omega)
    (by have := b.isLt; omega) (by decide)

theorem suspNow : ∀ g b, Statement (.suspNow g b) := fun g b =>
  congrArg some <| encR_op (by decide) (by have := g.isLt; omega) (by decide) (by decide) (by have := b.isLt; omega)
    (by decide)

theorem done : ∀ g, Statement (.done g) := fun g =>
  congrArg some <| encR_op (by decide) (by have := g.isLt; omega) (by decide) (by decide) (by decide) (by decide)

theorem tdld : ∀ g d a b, Statement (.tdld g d a b) := fun g d a b =>
  congrArg some <| encR_op (by decide) (by have := g.isLt; omega) (by have := d.isLt; omega) (by have := a.isLt; omega)
    (by have := b.isLt; omega) (by decide)

theorem tdinv : ∀ g a, Statement (.tdinv g a) := fun g a =>
  congrArg some <| encR_op (by decide) (by have := g.isLt; omega) (by decide) (by have := a.isLt; omega) (by decide)
    (by decide)

theorem marm : ∀ g ix a, Statement (.marm g ix a) := fun g ix a =>
  congrArg some <| encI_op (by decide) (by have := g.isLt; omega) (by have := ix.isLt; omega) (by have := a.isLt; omega)
    (by decide)

theorem mzero : ∀ g d n, Statement (.mzero g d n) := fun g d n =>
  congrArg some <| encR_op (by decide) (by have := g.isLt; omega) (by have := d.isLt; omega) (by decide)
    (by have := n.isLt; omega) (by decide)

theorem mzeroRel : ∀ g d n, Statement (.mzeroRel g d n) := fun g d n =>
  congrArg some <| encR_op (by decide) (by have := g.isLt; omega) (by have := d.isLt; omega) (by decide)
    (by have h0 := n.isLt; omega) (by decide)

theorem mld : ∀ g d a b, Statement (.mld g d a b) := fun g d a b =>
  congrArg some <| encR_op (by decide) (by have := g.isLt; omega) (by have := d.isLt; omega) (by have := a.isLt; omega)
    (by have := b.isLt; omega) (by decide)

theorem mst : ∀ g d a b, Statement (.mst g d a b) := fun g d a b =>
  congrArg some <| encR_op (by decide) (by have := g.isLt; omega) (by have := d.isLt; omega) (by have := a.isLt; omega)
    (by have := b.isLt; omega) (by decide)

theorem mcf : ∀ g a n, Statement (.mcf g a n) := fun g a n =>
  congrArg some <| encR_op (by decide) (by have := g.isLt; omega) (by decide) (by have := a.isLt; omega)
    (by have := n.isLt; omega) (by decide)

theorem mcf2 : ∀ g a n, Statement (.mcf2 g a n) := fun g a n =>
  congrArg some <| encR_op (by decide) (by have := g.isLt; omega) (by decide) (by have := a.isLt; omega)
    (by have h0 := n.isLt; omega) (by decide)

theorem mpoly : ∀ g d a, Statement (.mpoly g d a) := fun g d a =>
  congrArg some <| encR_op (by decide) (by have := g.isLt; omega) (by have := d.isLt; omega) (by have := a.isLt; omega)
    (by decide) (by decide)

theorem miter : ∀ g d a b, Statement (.miter g d a b) := fun g d a b =>
  congrArg some <| encR_op (by decide) (by have := g.isLt; omega) (by have := d.isLt; omega) (by have := a.isLt; omega)
    (by have := b.isLt; omega) (by decide)

theorem tail : ∀ g a b, Statement (.tail g a b) := fun g a b =>
  congrArg some <| encR_op (by decide) (by have := g.isLt; omega) (by decide) (by have := a.isLt; omega)
    (by have := b.isLt; omega) (by decide)

theorem waittl : ∀ g a ix, Statement (.waittl g a ix) := fun g a ix =>
  congrArg some <| encR_op (by decide) (by have := g.isLt; omega) (by decide) (by have := a.isLt; omega)
    (by have := ix.isLt; omega) (by decide)

theorem tlrd : ∀ g d subw, Statement (.tlrd g d subw) := fun g d subw =>
  congrArg some <| encR_op (by decide) (by have := g.isLt; omega) (by have := d.isLt; omega) (by decide)
    (by have := subw.isLt; omega) (by decide)

theorem tex : ∀ g d a b, Statement (.tex g d a b) := fun g d a b =>
  congrArg some <| encR_op (by decide) (by have := g.isLt; omega) (by have := d.isLt; omega) (by have := a.isLt; omega)
    (by have := b.isLt; omega) (by decide)

theorem texf : ∀ g d a b, Statement (.texf g d a b) := fun g d a b =>
  congrArg some <| encR_op (by decide) (by have := g.isLt; omega) (by have := d.isLt; omega) (by have := a.isLt; omega)
    (by have := b.isLt; omega) (by decide)

theorem rq : ∀ g d a b, Statement (.rq g d a b) := fun g d a b =>
  congrArg some <| encR_op (by decide) (by have := g.isLt; omega) (by have := d.isLt; omega) (by have := a.isLt; omega)
    (by have := b.isLt; omega) (by decide)

theorem pixw : ∀ g a b, Statement (.pixw g a b) := fun g a b =>
  congrArg some <| encR_op (by decide) (by have := g.isLt; omega) (by decide) (by have := a.isLt; omega)
    (by have := b.isLt; omega) (by decide)

theorem sysr : ∀ g d n, Statement (.sysr g d n) := fun g d n =>
  congrArg some <| encR_op (by decide) (by have := g.isLt; omega) (by have := d.isLt; omega) (by decide)
    (by have := n.isLt; omega) (by decide)

theorem sysw : ∀ g a n, Statement (.sysw g a n) := fun g a n =>
  congrArg some <| encR_op (by decide) (by have := g.isLt; omega) (by decide) (by have := a.isLt; omega)
    (by have := n.isLt; omega) (by decide)

theorem tlbi : ∀ g a b, Statement (.tlbi g a b) := fun g a b =>
  congrArg some <| encR_op (by decide) (by have := g.isLt; omega) (by decide) (by have := a.isLt; omega)
    (by have := b.isLt; omega) (by decide)

theorem himm : ∀ p, Statement (.himm p) := fun p =>
  congrArg some <| encH_op (by decide) (by have := p.isLt; omega)

theorem hmod : ∀ r subw f n a c h t, Statement (.hmod r subw f n a c h t) := fun r subw f n a c h t =>
  congrArg some <| encH_op (by decide)
    (by have h0 := r.isLt; have h1 := subw.isLt; have h2 := f.isLt; have h3 := n.isLt; have h4 := a.isLt; have h5 := c.isLt; have h6 := h.isLt; have h7 := t.isLt; omega)

theorem hsch : ∀ y d, Statement (.hsch y d) := fun y d =>
  congrArg some <| encH_op (by decide) (by have h0 := y.isLt; have h1 := d.isLt; omega)

theorem hdropLo : ∀ m, Statement (.hdropLo m) := fun m =>
  congrArg some <| encH_op (by decide) (by have := m.isLt; omega)

theorem hdropHi : ∀ m, Statement (.hdropHi m) := fun m =>
  congrArg some <| encH_op (by decide) (by have := m.isLt; omega)

theorem hdropX : ∀ f c, Statement (.hdropX f c) := fun f c =>
  congrArg some <| encH_op (by decide) (by have h0 := f.isLt; have h1 := c.isLt; omega)

theorem cxRfetch : ∀ subw d, Statement (.cxRfetch subw d) := fun subw d =>
  congrArg some <| encCx_op (by decide) (by decide) (by have := subw.isLt; omega) (by have := d.isLt; omega)

theorem cxBfx : ∀ t subw d, Statement (.cxBfx t subw d) := fun t subw d =>
  congrArg some <| encCx_op (by decide) (by have := t.isLt; omega) (by have := subw.isLt; omega) (by have := d.isLt; omega)

theorem cxSwait : ∀ t subw d, Statement (.cxSwait t subw d) := fun t subw d =>
  congrArg some <| encCx_op (by decide) (by have := t.isLt; omega) (by have := subw.isLt; omega) (by have := d.isLt; omega)

theorem cxDisp : ∀ subw d, Statement (.cxDisp subw d) := fun subw d =>
  congrArg some <| encCx_op (by decide) (by decide) (by have := subw.isLt; omega) (by have := d.isLt; omega)

theorem pendingValueFill : ∀ x0, Statement (.pendingValueFill x0) := fun _ => rfl

theorem writeComplete : ∀ x0, Statement (.writeComplete x0) := fun _ => rfl

theorem binDraw : ∀ x0, Statement (.binDraw x0) := fun _ => rfl

theorem waitwTimeout : ∀ x0, Statement (.waitwTimeout x0) := fun _ => rfl

theorem watchdog : ∀ x0, Statement (.watchdog x0) := fun _ => rfl

theorem regBlockRetention : ∀ x0 x1 x2 x3, Statement (.regBlockRetention x0 x1 x2 x3) := fun _ _ _ _ => rfl

theorem scratchBankRetention : ∀ x0 x1, Statement (.scratchBankRetention x0 x1) := fun _ _ => rfl

theorem readyQueueScan : Statement .readyQueueScan := rfl

theorem teamRetire : ∀ x0, Statement (.teamRetire x0) := fun _ => rfl

theorem cardRetirement : ∀ x0, Statement (.cardRetirement x0) := fun _ => rfl

theorem cardDeadline : ∀ x0, Statement (.cardDeadline x0) := fun _ => rfl

theorem patrolScrub : ∀ x0 x1 x2, Statement (.patrolScrub x0 x1 x2) := fun _ _ _ => rfl

theorem remotePost : ∀ x0, Statement (.remotePost x0) := fun _ => rfl

theorem continuationDelivery : ∀ x0 x1, Statement (.continuationDelivery x0 x1) := fun _ _ => rfl

theorem continuationResume : ∀ x0, Statement (.continuationResume x0) := fun _ => rfl

theorem descriptorLoadComplete : ∀ x0, Statement (.descriptorLoadComplete x0) := fun _ => rfl

theorem issueLatchEnter : ∀ x0, Statement (.issueLatchEnter x0) := fun _ => rfl

theorem bruinPass : ∀ x0, Statement (.bruinPass x0) := fun _ => rfl

theorem chainEnable : ∀ x0 x1 x2, Statement (.chainEnable x0 x1 x2) := fun _ _ _ => rfl

theorem chainDisable : ∀ x0 x1 x2, Statement (.chainDisable x0 x1 x2) := fun _ _ _ => rfl

theorem chainConfigWrite : ∀ x0 x1 x2, Statement (.chainConfigWrite x0 x1 x2) := fun _ _ _ => rfl

theorem chtailWrite : ∀ x0 x1 x2, Statement (.chtailWrite x0 x1 x2) := fun _ _ _ => rfl

theorem chainEntryAccept : ∀ x0 x1, Statement (.chainEntryAccept x0 x1) := fun _ _ => rfl

theorem chainNop : ∀ x0 x1, Statement (.chainNop x0 x1) := fun _ _ => rfl

theorem copy : ∀ x0 x1, Statement (.copy x0 x1) := fun _ _ => rfl

theorem raw : ∀ x0 x1, Statement (.raw x0 x1) := fun _ _ => rfl

theorem fill : ∀ x0 x1, Statement (.fill x0 x1) := fun _ _ => rfl

theorem gather : ∀ x0 x1, Statement (.gather x0 x1) := fun _ _ => rfl

theorem redadd : ∀ x0 x1, Statement (.redadd x0 x1) := fun _ _ => rfl

theorem chainWait : ∀ x0 x1, Statement (.chainWait x0 x1) := fun _ _ => rfl

theorem copyBurst : ∀ x0, Statement (.copyBurst x0) := fun _ => rfl

theorem chainEntryComplete : ∀ x0 x1, Statement (.chainEntryComplete x0 x1) := fun _ _ => rfl

theorem binnerJob : ∀ x0 x1, Statement (.binnerJob x0 x1) := fun _ _ => rfl

theorem rasterStrip : ∀ x0, Statement (.rasterStrip x0) := fun _ => rfl

theorem quadRecordPush : ∀ x0, Statement (.quadRecordPush x0) := fun _ => rfl

theorem rayFinish : ∀ x0, Statement (.rayFinish x0) := fun _ => rfl

theorem encoderTileRow : ∀ x0, Statement (.encoderTileRow x0) := fun _ => rfl

theorem bsrdWrite : ∀ x0 x1, Statement (.bsrdWrite x0 x1) := fun _ _ => rfl

theorem displayLine : ∀ x0, Statement (.displayLine x0) := fun _ => rfl

theorem dpLinkLoss : ∀ x0, Statement (.dpLinkLoss x0) := fun _ => rfl

theorem hotPlug : ∀ x0 x1, Statement (.hotPlug x0 x1) := fun _ _ => rfl

theorem streamAdmit : ∀ x0, Statement (.streamAdmit x0) := fun _ => rfl

theorem streamStop : ∀ x0, Statement (.streamStop x0) := fun _ => rfl

theorem streamFrameLimit : ∀ x0, Statement (.streamFrameLimit x0) := fun _ => rfl

theorem actStart : ∀ x0, Statement (.actStart x0) := fun _ => rfl

theorem actRetire : ∀ x0, Statement (.actRetire x0) := fun _ => rfl

theorem outputCardLaunch : ∀ x0, Statement (.outputCardLaunch x0) := fun _ => rfl

theorem actAbandon : ∀ x0, Statement (.actAbandon x0) := fun _ => rfl

theorem sync : ∀ x0 x1, Statement (.sync x0 x1) := fun _ _ => rfl

theorem followUp : ∀ x0 x1 x2, Statement (.followUp x0 x1 x2) := fun _ _ _ => rfl

theorem delayReq : Statement .delayReq := rfl

theorem delayResp : ∀ x0 x1 x2, Statement (.delayResp x0 x1 x2) := fun _ _ _ => rfl

theorem announce : ∀ x0 x1, Statement (.announce x0 x1) := fun _ _ => rfl

theorem holdover : Statement .holdover := rfl

theorem timensRead : Statement .timensRead := rfl

theorem bankFlipLand : ∀ x0, Statement (.bankFlipLand x0) := fun _ => rfl

theorem bankFlipIssuable : ∀ x0, Statement (.bankFlipIssuable x0) := fun _ => rfl

theorem timeSliceExpiry : ∀ x0, Statement (.timeSliceExpiry x0) := fun _ => rfl

theorem contextSwapOut : ∀ x0, Statement (.contextSwapOut x0) := fun _ => rfl

theorem contextRestore : ∀ x0 x1, Statement (.contextRestore x0 x1) := fun _ _ => rfl

theorem trapRecordPost : ∀ x0, Statement (.trapRecordPost x0) := fun _ => rfl

theorem tqheadWrite : ∀ x0 x1, Statement (.tqheadWrite x0 x1) := fun _ _ => rfl

theorem replay : ∀ x0, Statement (.replay x0) := fun _ => rfl

theorem resume : ∀ x0 x1 x2, Statement (.resume x0 x1 x2) := fun _ _ _ => rfl

theorem killteam : ∀ x0 x1 x2, Statement (.killteam x0 x1 x2) := fun _ _ _ => rfl

theorem killcard : ∀ x0 x1, Statement (.killcard x0 x1) := fun _ _ => rfl

theorem unfreeze : ∀ x0, Statement (.unfreeze x0) := fun _ => rfl

theorem ownershipWrite : ∀ x0 x1 x2, Statement (.ownershipWrite x0 x1 x2) := fun _ _ _ => rfl

theorem registerWrite : ∀ x0 x1 x2, Statement (.registerWrite x0 x1 x2) := fun _ _ _ => rfl

theorem kickWrite : ∀ x0 x1, Statement (.kickWrite x0 x1) := fun _ _ => rfl

theorem hostQueueEnable : ∀ x0 x1, Statement (.hostQueueEnable x0 x1) := fun _ _ => rfl

theorem hostQueueDisable : ∀ x0 x1, Statement (.hostQueueDisable x0 x1) := fun _ _ => rfl

theorem packetFetch : ∀ x0, Statement (.packetFetch x0) := fun _ => rfl

theorem packetNop : ∀ x0, Statement (.packetNop x0) := fun _ => rfl

theorem launch : ∀ x0, Statement (.launch x0) := fun _ => rfl

theorem graph : ∀ x0, Statement (.graph x0) := fun _ => rfl

theorem wait : ∀ x0, Statement (.wait x0) := fun _ => rfl

theorem signal : ∀ x0, Statement (.signal x0) := fun _ => rfl

theorem flush : ∀ x0, Statement (.flush x0) := fun _ => rfl

theorem fetchfence : ∀ x0, Statement (.fetchfence x0) := fun _ => rfl

theorem traceSyncRecord : ∀ x0, Statement (.traceSyncRecord x0) := fun _ => rfl

theorem trdWrite : ∀ x0 x1, Statement (.trdWrite x0 x1) := fun _ _ => rfl

theorem preciseStopRequest : ∀ x0, Statement (.preciseStopRequest x0) := fun _ => rfl

theorem preciseStop : ∀ x0, Statement (.preciseStop x0) := fun _ => rfl

theorem preciseStopRelease : ∀ x0, Statement (.preciseStopRelease x0) := fun _ => rfl

theorem counterSample : Statement .counterSample := rfl

theorem srdWrite : ∀ x0, Statement (.srdWrite x0) := fun _ => rfl

theorem captureStart : ∀ x0, Statement (.captureStart x0) := fun _ => rfl

theorem captureStop : ∀ x0, Statement (.captureStop x0) := fun _ => rfl

theorem energyLowRead : ∀ x0, Statement (.energyLowRead x0) := fun _ => rfl

theorem powerGrant : ∀ x0, Statement (.powerGrant x0) := fun _ => rfl

theorem budgetSend : ∀ x0 x1, Statement (.budgetSend x0 x1) := fun _ _ => rfl

theorem budgetMessage : ∀ x0 x1 x2 x3, Statement (.budgetMessage x0 x1 x2 x3) := fun _ _ _ _ => rfl

theorem filler : ∀ x0 x1, Statement (.filler x0 x1) := fun _ _ => rfl

theorem powerKill : Statement .powerKill := rfl

theorem linkModuleFail : ∀ x0, Statement (.linkModuleFail x0) := fun _ => rfl

theorem hostTimeout : ∀ x0, Statement (.hostTimeout x0) := fun _ => rfl

theorem boot : Statement .boot := rfl

theorem attestationRequest : ∀ x0 x1, Statement (.attestationRequest x0 x1) := fun _ _ => rfl

theorem firmwareSwitch : ∀ x0, Statement (.firmwareSwitch x0) := fun _ => rfl

theorem clusterReplace : ∀ x0, Statement (.clusterReplace x0) := fun _ => rfl

theorem lp6Retrain : ∀ x0, Statement (.lp6Retrain x0) := fun _ => rfl

theorem streamReconfigure : ∀ x0, Statement (.streamReconfigure x0) := fun _ => rfl

theorem ingressRequest : ∀ x0, Statement (.ingressRequest x0) := fun _ => rfl

theorem remoteResponse : ∀ x0 x1, Statement (.remoteResponse x0 x1) := fun _ _ => rfl

theorem remoteTimeout : ∀ x0, Statement (.remoteTimeout x0) := fun _ => rfl

theorem portLossOfLock : ∀ x0, Statement (.portLossOfLock x0) := fun _ => rfl

theorem portRetrained : ∀ x0, Statement (.portRetrained x0) := fun _ => rfl

theorem illegalOpcode : ∀ x0, Statement (.illegalOpcode x0) := fun _ => rfl

theorem hschDelayEnd : ∀ x0, Statement (.hschDelayEnd x0) := fun _ => rfl

theorem partFailure : ∀ x0, Statement (.partFailure x0) := fun _ => rfl

theorem hostMemoryAccess : ∀ x0 x1 x2, Statement (.hostMemoryAccess x0 x1 x2) := fun _ _ _ => rfl

theorem ucieModuleRetrained : ∀ x0, Statement (.ucieModuleRetrained x0) := fun _ => rfl

theorem dpLinkTrained : ∀ x0, Statement (.dpLinkTrained x0) := fun _ => rfl

end Sys2Proof.Laws.WordForm
end

