-- ==== Sys2Proof/Laws/Run.lean ====
section
/-! SUPPORT. The run of one word over a group of one thread: what it comes to, for every form. -/

namespace Sys2Proof.Machine

/-- What the thread's lane sees of the word. -/
def laneOf (f : Form) (s : State) (gid : Nat) (g : Group) (sid : Nat) (th : Thread) (tm : Team)
    (peers : List (Nat × List Word)) (whole : Bool) : Lane :=
  { sid := sid, tid := th.team, thread := seen s gid g th, team := tm, pc := g.pc, saved := g.runPc,
    vals := sourcesOf f s gid g sid th tm, w := wordsOf f s gid g sid th tm, mods := g.mods, peers := peers, whole := whole,
    began := s.clk }

@[simp] theorem seen_team (s : State) (gid : Nat) (g : Group) (th : Thread) : (seen s gid g th).team = th.team := by
  unfold seen; split <;> rfl

theorem seen_cond (s : State) (gid : Nat) (g : Group) (th : Thread) : (seen s gid g th).cond = th.cond := by
  unfold seen; split <;> rfl

theorem seen_guard (s : State) (gid : Nat) (g : Group) (th : Thread) (k : BitVec 3) :
    (seen s gid g th).guard k = th.guard k := by
  unfold seen; split <;> rfl

/-- Dropping latches changes threads only. -/
theorem State.dropLatches_eq (s : State) (l : List Nat) :
    s.dropLatches l = { s with threads := (s.dropLatches l).threads } := by
  unfold State.dropLatches
  induction l generalizing s with
  | nil => rfl
  | cons x r ih => simp only [List.foldl_cons]; rw [ih]; rfl

/-- `asSeen` changes threads only. -/
theorem State.asSeen_eq (s : State) (gid : Nat) (g : Group) :
    s.asSeen gid g = { s with threads := (s.asSeen gid g).threads } := by
  unfold State.asSeen
  split
  · rfl
  · exact State.dropLatches_eq _ _

theorem State.asSeen_thread {s : State} {gid : Nat} {g : Group} {sid : Nat} {th : Thread} (ho : g.threads = [sid])
    (ht : tget s.threads sid = some th) : tget (s.asSeen gid g).threads sid = some (seen s gid g th) := by
  unfold State.asSeen seen
  split
  · exact ht
  · simp [ho, State.dropLatches, ht]

theorem State.asSeen_other {s : State} {gid : Nat} {g : Group} {sid : Nat} (ho : g.threads = [sid]) {i : Nat} (h : i ≠ sid) :
    tget (s.asSeen gid g).threads i = tget s.threads i := by
  unfold State.asSeen
  split
  · rfl
  · simp [ho, State.dropLatches, State.threads_updThread_other _ _ h]

/-- Sources read the same in states that agree on memory and cores. -/
theorem State.readSel_congr {s s' : State} (hm : s'.mem = s.mem) (sid : Nat) (th : Thread) (t : Team) (im : Option Word)
    (k : Nat) (x : BitVec 7) : s'.readSel sid th t im k x = s.readSel sid th t im k x := by
  simp only [State.readSel, State.queueWord, State.readNat, hm]

theorem State.readSrcs_congr {s s' : State} (hm : s'.mem = s.mem) (sid : Nat) (th : Thread) (t : Team) (im : Option Word)
    (l : List (Nat × BitVec 7)) (b : List Nat) : s'.readSrcs sid th t im l b = s.readSrcs sid th t im l b := by
  induction l generalizing b with
  | nil => rfl
  | cons x r ih =>
    simp only [State.readSrcs]
    split <;> rw [State.readSel_congr hm, ih]

/-- Queue operands fare the same in states that differ in their threads only. -/
theorem State.checkPops_threads (s : State) (x : Tbl Thread) (t : Team) (m : BitVec 8) (l b : List Nat) :
    ({ s with threads := x } : State).checkPops t m l b = s.checkPops t m l b := by
  induction l generalizing b with
  | nil => rfl
  | cons n r ih => simp only [State.checkPops, ih]; rfl

theorem State.queueCheck_threads (s : State) (x : Tbl Thread) (t : Team) (l p : List Nat) (k : Nat) :
    ({ s with threads := x } : State).queueCheck t l p k = s.queueCheck t l p k := by
  simp only [State.queueCheck, State.checkPops_threads]

theorem State.asSeen_queueCheck (s : State) (gid : Nat) (g : Group) (t : Team) (l p : List Nat) (k : Nat) :
    (s.asSeen gid g).queueCheck t l p k = s.queueCheck t l p k := by
  rw [State.asSeen_eq]; exact State.queueCheck_threads _ _ _ _ _ _

/-! ### The lane's turn -/

/-- A word that executes keeps nothing waiting on the scoreboard (R150). -/
theorem Ready.issuable {f : Form} {s : State} {gid : Nat} {g : Group} {sid : Nat} {th : Thread} {tm : Team}
    (h : Ready f s gid g sid th tm) : f.notIssuable (s.asSeen gid g) g sid = false := by
  have hth := State.asSeen_thread (gid := gid) h.only h.thread
  have heq := State.asSeen_eq s gid g
  have htm : (s.asSeen gid g).teamOf sid = some tm := by
    unfold State.teamOf; rw [hth, Option.bind_some, seen_team, heq]; exact h.team
  have hsrc : (s.asSeen gid g).readSrcs sid (seen s gid g th) tm (runHimm g.run) f.srcs [] =
      sourcesOf f s gid g sid th tm := State.readSrcs_congr (by rw [heq]) _ _ _ _ _ _
  unfold Form.notIssuable Form.waitsFor
  simp only [hth, htm, hsrc, Bool.and_eq_false_iff]
  refine .inr (List.any_eq_false.2 fun p hp hc => ?_)
  exact List.any_eq_false.1 h.known p hp (by
    simp only [Bool.and_eq_true] at hc ⊢; exact ⟨hc.1.1.1, hc.1.2⟩)

/-- The lane of a thread alone: what it does when its word executes. -/
theorem Form.lane_alone {f : Form} {act : Lane → State → LaneOut} {s : State} {gid : Nat} {g : Group} {sid : Nat}
    {th : Thread} {tm : Team} {peers : List (Nat × List Word)} {whole : Bool} (h : Ready f s gid g sid th tm) :
    f.lane act gid g peers whole (s.asSeen gid g) (PartIssue.none'.acc (s.asSeen gid g) s) sid =
      (match act (laneOf f s gid g sid th tm peers whole) (s.asSeen gid g) with
      | .ok s' out =>
        let a : Acc :=
          { PartIssue.none'.acc (s.asSeen gid g) s with stay := [(sid, g.pc + 4)], used := [(sid, f.uses out)] }
        if f.collective then { a with s := f.popAll s' th.team, late := out.map fun o => (sid, th.team, o) }
        else { a with s := out.foldl (fun s o => s.writeDst sid o.1 o.2) (f.popAll s' th.team) }
      | .note s' e =>
        { PartIssue.none'.acc (s.asSeen gid g) s with
            s := f.popAll s' th.team, stay := [(sid, g.pc + 4)], faults := [(sid, e, g.pc + 4)], used := [(sid, f.reads)] }
      | .goto s' tgt =>
        { PartIssue.none'.acc (s.asSeen gid g) s with
            s := f.popAll s' th.team, stay := [(sid, tgt)], used := [(sid, f.reads)] }
      | .gone s' =>
        { PartIssue.none'.acc (s.asSeen gid g) s with s := f.popAll s' th.team, left := true, used := [(sid, f.reads)] }
      | .halts s' e resume =>
        { PartIssue.none'.acc (s.asSeen gid g) s with
            s := f.popAll s' th.team, faults := [(sid, e, resume)], left := true, used := [(sid, f.reads)] }
      | .fault e => { PartIssue.none'.acc (s.asSeen gid g) s with faults := [(sid, e, g.runPc)], left := true }
      | .block w =>
        match w with
        | .watch d lim _ =>
          { PartIssue.none'.acc (s.asSeen gid g) s with
              s := (f.popAll (s.asSeen gid g) th.team).blockThread sid (watchOf d lim g.run) (g.pc + 4), left := true,
              used := [(sid, f.reads)] }
        | _ =>
          { PartIssue.none'.acc (s.asSeen gid g) s with
              s := (s.asSeen gid g).blockThread sid w g.runPc, blocked := [sid], left := true }
      | .hold => { PartIssue.none'.acc (s.asSeen gid g) s with held := true }
      | .send k => { PartIssue.none'.acc (s.asSeen gid g) s with held := true, base := k s }) := by
  have hth := State.asSeen_thread (gid := gid) h.only h.thread
  have heq := State.asSeen_eq s gid g
  have htm : tget (s.asSeen gid g).teams th.team = some tm := by
    rw [heq]; exact h.team
  have hctx : (s.asSeen gid g).ctx tm.ctx = s.ctx tm.ctx := by rw [heq]; rfl
  have hclk : (s.asSeen gid g).clk = s.clk := by rw [heq]
  have hmem : (s.asSeen gid g).mem = s.mem := by rw [heq]
  have hsrc : (s.asSeen gid g).readSrcs sid (seen s gid g th) tm (runHimm g.run) f.srcs [] =
      sourcesOf f s gid g sid th tm := State.readSrcs_congr hmem _ _ _ _ _ _
  unfold Form.lane
  simp only [PartIssue.acc, PartIssue.none', hth, seen_cond, seen_team, h.inGroup, ne_eq, not_true_eq_false, if_false, htm, h.hints,
    seen_guard, h.on, Bool.not_true, Bool.false_eq_true, hctx, h.legal, List.filter_nil, List.length_nil,
    State.asSeen_queueCheck, h.queues, hsrc, List.nil_append, Bool.true_and, decide_false, reduceCtorEq, hclk, h.whole,
    Option.map_none, Option.getD_none]
  rfl

/-! ### The end of a word -/

@[simp] theorem State.touchOf_threads (s b : State) (sid : Nat) (ws : List Nat) : (s.touchOf b sid ws).threads = s.threads := by
  unfold State.touchOf; split <;> rfl

theorem State.touchOf_eq (s b : State) (sid : Nat) (ws : List Nat) :
    s.touchOf b sid ws = { s with cores := (s.touchOf b sid ws).cores } := by
  unfold State.touchOf; split <;> rfl

theorem State.touchOf_core (s b : State) (sid : Nat) (ws : List Nat) (i : Nat) :
    (s.touchOf b sid ws).core i = { s.core i with power := ((s.touchOf b sid ws).core i).power } := by
  unfold State.touchOf
  split
  · rfl
  · simp only [State.touchSlot, State.core_updCore]; split
    · next e => subst e; rfl
    · rfl

theorem State.touchOf_core_other (s b : State) (sid : Nat) (ws : List Nat) {i : Nat} (h : i ≠ sidCore sid) :
    (s.touchOf b sid ws).core i = s.core i := by
  unfold State.touchOf
  split
  · rfl
  · simp [State.touchSlot, State.core_updCore, h]

/-- The state at the end of a word whose thread stays, at PC `p`; `b`: the state that the word found. -/
def stayEnd (f : Form) (s b : State) (gid : Nat) (g : Group) (sid : Nat) (p : Word) : State :=
  f.settle gid g { PartIssue.none'.acc s b with stay := [(sid, p)] }

/-- The end of a word of a group of one thread that stays, written out. -/
theorem stayEnd_eq {f : Form} {s b : State} {gid : Nat} {g : Group} {sid : Nat} {p : Word} {g' : Group}
    (ho : g.threads = [sid]) (hg : tget s.groups gid = some g') (ho' : g'.threads = [sid]) :
    ∃ g2 : Group, g2.pc = p ∧ g2.threads = [sid] ∧ g2.run = [] ∧ ∃ h1 h2 : CoreSt → CoreSt,
      (∀ c, h1 c = { c with rotation := (h1 c).rotation, lastGroup := (h1 c).lastGroup, holder := (h1 c).holder })
      ∧ (∀ c, h2 c = { c with holder := (h2 c).holder })
      ∧ stayEnd f s b gid g sid p =
        ({ (((s.updThread sid fun th => th.drop g.run).updCore g.core h1).updThread sid
          fun th => { th with pc := p }) with groups := tset s.groups gid g2 }).updCore g.core h2 := by
  have hgrp : ∀ h1 : CoreSt → CoreSt,
      ((s.updThread sid fun th => th.drop g.run).updCore g.core h1).groups = s.groups := fun _ => rfl
  unfold stayEnd Form.settle
  simp only [PartIssue.acc, PartIssue.none', ho, List.contains_nil, Bool.not_false, List.any_nil, Bool.and_self,
    List.filter_cons_of_pos, List.filter_nil, List.foldl_cons, List.foldl_nil, hgrp, hg, ho', List.contains_cons,
    beq_self_eq_true, Bool.true_or]
  generalize b.groupPrio g = pr
  generalize g.pc + 4 = n
  by_cases hp : p = n
  · subst hp
    simp
    refine ⟨_, ?_, ?_, ?_, _, ?_, _, ?_, rfl⟩ <;> first | rfl | (intro c; rfl)
  · have he : ([p] : List Word).eraseDups = [p] := rfl
    simp [hp, he]
    refine ⟨_, ?_, ?_, ?_, _, ?_, _, ?_, rfl⟩ <;> first | rfl | (intro c; rfl)

/-- What the end of a word does to a group of one thread that stays. -/
theorem stayEnd_spec {f : Form} {s b : State} {gid : Nat} {g : Group} {sid : Nat} {p : Word} {th : Thread} {g' : Group}
    (ho : g.threads = [sid]) (hg : tget s.groups gid = some g') (ho' : g'.threads = [sid])
    (ht : tget s.threads sid = some th) :
    let r := stayEnd f s b gid g sid p
    r = { s with threads := r.threads, groups := r.groups, cores := r.cores }
    ∧ (∀ i, i ≠ sid → tget r.threads i = tget s.threads i) ∧ (∀ i, i ≠ gid → tget r.groups i = tget s.groups i)
    ∧ At r gid sid th g.run p
    ∧ (∀ i, r.core i = { s.core i with rotation := (r.core i).rotation, lastGroup := (r.core i).lastGroup,
                                       holder := (r.core i).holder })
    ∧ (∀ i, i ≠ g.core → r.core i = s.core i) := by
  obtain ⟨g2, h1, h2, h3, k1, k2, hk1, hk2, he⟩ := stayEnd_eq (f := f) (b := b) (p := p) ho hg ho'
  intro r
  have hr : r = _ := he
  have hcore : ∀ i, r.core i = if i = g.core then k2 (k1 (s.core i)) else s.core i := by
    intro i
    rw [hr, State.core_updCore]
    change (if i = g.core then k2 (((s.updThread sid fun th => th.drop g.run).updCore g.core k1).core g.core)
      else ((s.updThread sid fun th => th.drop g.run).updCore g.core k1).core i) = _
    split
    · next e => subst e; simp
    · next e => rw [State.core_updCore_other _ _ e]; rfl
  refine ⟨by rw [hr]; rfl, ?_, ?_, ⟨?_, g2, ?_, h1, h2, h3⟩, ?_, ?_⟩
  · intro i hi
    rw [hr]
    simp [State.threads_updThread, hi]
  · intro i hi
    rw [hr]
    simp only [State.updCore_groups]
    rw [tget_tset_other _ _ hi]
  · rw [hr]
    simp [ht]
  · rw [hr]
    simp [tget_tset_same]
  · intro i
    rw [hcore i]
    split
    · rw [hk2, hk1]
    · rfl
  · intro i h4
    rw [hcore i, if_neg h4]

/-- Captures that count a word change in their counts (R361). -/
theorem captures_spec (l : List Nat) (s : State) :
    let r := l.foldl (fun s c => s.updCtx c fun c => { c with capIssued := c.capIssued + 1 }) s
    r = { s with ctxs := r.ctxs } ∧ ∀ i, r.ctx i = { s.ctx i with capIssued := (r.ctx i).capIssued } := by
  induction l generalizing s with
  | nil => exact ⟨rfl, fun _ => rfl⟩
  | cons a l ih =>
    obtain ⟨i1, i2⟩ := ih (s.updCtx a fun c => { c with capIssued := c.capIssued + 1 })
    refine ⟨by rw [List.foldl_cons, i1]; rfl, fun i => ?_⟩
    rw [List.foldl_cons, i2 i, State.ctx_updCtx]
    split
    · next e => subst e; rfl
    · rfl

/-- What the charge of a word to one team does (R34, R109, R361). -/
theorem charge_spec (s : State) (tid : Nat) :
    let r := s.charge [tid]
    r = { s with teams := r.teams, ctxs := r.ctxs }
    ∧ (∀ i, tget r.teams i = (tget s.teams i).map fun m => if i = tid then { m with issued := m.issued + 1 } else m)
    ∧ ∀ i, r.ctx i = { s.ctx i with capIssued := (r.ctx i).capIssued } := by
  obtain ⟨c1, c2⟩ := captures_spec (s.captured [tid]) s
  unfold State.charge
  simp only [List.foldl_cons, List.foldl_nil]
  generalize (s.captured [tid]).foldl (fun s c => s.updCtx c fun c => { c with capIssued := c.capIssued + 1 }) s = u at c1 c2
  refine ⟨by rw [c1]; rfl, fun i => ?_, c2⟩
  rw [State.teams_updTeam, show u.teams = s.teams by rw [c1]]
  split
  · next e => subst e; rfl
  · cases tget s.teams i <;> rfl

/-- The frame reaches back over the power blocks that the word used (R28). -/
theorem WordFrame.untouch {s t b : State} {gid sid tid core : Nat} {ws : List Nat}
    (h : WordFrame (s.touchOf b sid ws) t gid sid tid core) : WordFrame s t gid sid tid core := by
  have he := State.touchOf_eq s b sid ws
  constructor
  case threads => intro i hi; rw [h.threads i hi, State.touchOf_threads]
  case groups => intro i hi; rw [h.groups i hi, he]
  case teams => intro i; rw [h.teams i, he]
  case ctxs => intro i; rw [h.ctxs i, he]; rfl
  case cores => intro i; rw [h.cores i, State.touchOf_core]
  case others => intro i h1 h2; rw [h.others i h1 h2, State.touchOf_core_other _ _ _ _ h2]
  case mem => rw [h.mem, he]
  case clusters => rw [h.clusters, he]
  case cards => rw [h.cards, he]
  case ops => rw [h.ops, he]
  case posts => rw [h.posts, he]
  case streams => rw [h.streams, he]
  case hostqs => rw [h.hostqs, he]
  case ctl => rw [h.ctl, he]
  case journal => rw [h.journal, he]
  case time => rw [h.time, he]
  case series => rw [h.series, he]
  case package => rw [h.package, he]
  case fabric => rw [h.fabric, he]
  case agenda => rw [h.agenda, he]
  case clk => rw [h.clk, he]

/-- The frame of a word that stays, from the state its own effect leaves. -/
theorem wordEnd_frame {f : Form} {s b : State} {gid : Nat} {g : Group} {sid tid : Nat} {p : Word} {th : Thread} {g' : Group}
    {ws : List Nat} (ho : g.threads = [sid]) (hg : tget s.groups gid = some g') (ho' : g'.threads = [sid])
    (ht : tget s.threads sid = some th) :
    let r : State := { ((stayEnd f (s.touchOf b sid ws) b gid g sid p).charge [tid]) with stalled := false }
    WordFrame s r gid sid tid g.core ∧ At r gid sid th g.run p := by
  suffices h : ∀ s : State, tget s.groups gid = some g' → tget s.threads sid = some th →
      WordFrame s { ((stayEnd f s b gid g sid p).charge [tid]) with stalled := false } gid sid tid g.core
      ∧ At { ((stayEnd f s b gid g sid p).charge [tid]) with stalled := false } gid sid th g.run p by
    obtain ⟨h1, h2⟩ := h (s.touchOf b sid ws) (by rw [State.touchOf_eq]; exact hg) (by rw [State.touchOf_threads]; exact ht)
    exact ⟨h1.untouch, h2⟩
  clear hg ht
  intro s hg ht
  obtain ⟨a1, a2, a3, ⟨a4, a5⟩, a6, a7⟩ := stayEnd_spec (f := f) (b := b) (p := p) ho hg ho' ht
  obtain ⟨b1, b2, b3⟩ := charge_spec (stayEnd f s b gid g sid p) tid
  generalize hq : (stayEnd f s b gid g sid p).charge [tid] = q at b1 b2 b3 ⊢
  generalize stayEnd f s b gid g sid p = w at a1 a2 a3 a4 a5 a6 a7 b1 b2 b3
  generalize hr : ({ q with stalled := false } : State) = r
  have hr := hr.symm
  have hth : r.threads = w.threads := by rw [hr, b1]
  have hgr : r.groups = w.groups := by rw [hr, b1]
  have hco : ∀ i, r.core i = w.core i := by intro i; rw [hr, b1]; rfl
  have hte : r.teams = q.teams := by rw [hr]
  have hct : ∀ i, r.ctx i = q.ctx i := by intro i; rw [hr]; rfl
  have hws : w.teams = s.teams := by rw [a1]
  have hwc : ∀ i, w.ctx i = s.ctx i := by intro i; rw [a1]; rfl
  refine ⟨?_, ⟨by rw [hth]; exact a4, by rw [hgr]; exact a5⟩⟩
  constructor
  case threads => intro i hi; rw [hth]; exact a2 i hi
  case groups => intro i hi; rw [hgr]; exact a3 i hi
  case teams => intro i; rw [hte, b2, hws]
  case ctxs => intro i; rw [hct, b3, hwc]
  case cores => intro i; rw [hco, a6 i]
  case others => intro i h1 h2; rw [hco]; exact a7 i h1
  all_goals rw [hr, b1, a1]

/-! ### The word -/

/-- What a collective reads of a thread alone. -/
def peersOf (f : Form) (s : State) (gid : Nat) (g : Group) (sid : Nat) (th : Thread) (tm : Team) : List (Nat × List Word) :=
  if f.collective then [(sid, wordsOf f s gid g sid th tm)] else []

theorem Form.gather_alone {f : Form} {s : State} {gid : Nat} {g : Group} {sid : Nat} {th : Thread} {tm : Team}
    (h : Ready f s gid g sid th tm) :
    f.gather gid g [] (s.asSeen gid g) g.threads = [(sid, wordsOf f s gid g sid th tm)] := by
  have hth := State.asSeen_thread (gid := gid) h.only h.thread
  have heq := State.asSeen_eq s gid g
  have htm : tget (s.asSeen gid g).teams th.team = some tm := by rw [heq]; exact h.team
  have hctx : (s.asSeen gid g).ctx tm.ctx = s.ctx tm.ctx := by rw [heq]; rfl
  have hmem : (s.asSeen gid g).mem = s.mem := by rw [heq]
  have hz : f.pushes * timesIn th.team [] = 0 := by simp [timesIn]
  have hsrc : (s.asSeen gid g).readSrcs sid (seen s gid g th) tm (runHimm g.run) f.srcs [] =
      sourcesOf f s gid g sid th tm := State.readSrcs_congr hmem _ _ _ _ _ _
  simp only [h.only, Form.gather, hth, seen_team, htm, h.hints, Option.isSome_none, seen_guard, h.on, Bool.not_true, Bool.or_false,
    seen_cond, h.inGroup, ne_eq, not_true_eq_false, decide_false, hctx, h.legal, State.asSeen_queueCheck, hz, h.queues, hsrc,
    Bool.false_eq_true, if_false, wordsOf]

/-- The run of a word over a thread alone. -/
theorem Form.run_alone {f : Form} {act : Lane → State → LaneOut} {s : State} {gid : Nat} {g : Group} {sid : Nat}
    {th : Thread} {tm : Team} (h : Ready f s gid g sid th tm) :
    f.run act s =
      (match act (laneOf f s gid g sid th tm (peersOf f s gid g sid th tm) false) (s.asSeen gid g) with
      | .ok s' out =>
        .next { ((stayEnd f ((out.foldl (fun s o => s.writeDst sid o.1 o.2) (f.popAll s' th.team)).touchOf s sid (f.uses out))
                  s gid g sid (g.pc + 4)).charge [th.team]) with stalled := false }
      | .note s' e =>
        .next { (((f.settle gid g { PartIssue.none'.acc ((f.popAll s' th.team).touchOf s sid f.reads) s with
                    stay := [(sid, g.pc + 4)], faults := [(sid, e, g.pc + 4)] }).charge [th.team]).raiseAll g.pc
                  [(sid, e, g.pc + 4)]) with stalled := false }
      | .goto s' tgt =>
        .next { ((stayEnd f ((f.popAll s' th.team).touchOf s sid f.reads) s gid g sid tgt).charge [th.team]) with
                  stalled := false }
      | .gone s' =>
        .next { ((f.settle gid g { PartIssue.none'.acc ((f.popAll s' th.team).touchOf s sid f.reads) s with left := true }).charge
                  [th.team]) with stalled := false }
      | .halts s' e resume =>
        .next { (((f.settle gid g { PartIssue.none'.acc ((f.popAll s' th.team).touchOf s sid f.reads) s with
                    faults := [(sid, e, resume)], left := true }).charge [th.team]).raise sid e g.pc resume) with
                  stalled := false }
      | .fault e =>
        .next { (((f.settle gid g { PartIssue.none'.acc (s.asSeen gid g) s with
                    faults := [(sid, e, g.runPc)], left := true }).charge [th.team]).raise sid e g.pc g.runPc) with
                  stalled := false }
      | .block w =>
        match w with
        | .watch d lim _ =>
          .next { ((f.settle gid g { PartIssue.none'.acc (((f.popAll (s.asSeen gid g) th.team).blockThread sid
                      (watchOf d lim g.run) (g.pc + 4)).touchOf s sid f.reads) s with left := true }).charge [th.team]) with
                    stalled := false }
        | _ =>
          .next { ((f.settle gid g { PartIssue.none'.acc ((s.asSeen gid g).blockThread sid w g.runPc) s with
                      blocked := [sid], left := true }).charge [th.team]) with stalled := false }
      | .hold => .next { s with stalled := true }
      | .send k => .next { (k s) with stalled := true }) := by
  have hl := Form.lane_alone (act := act) (peers := peersOf f s gid g sid th tm) (whole := false) h
  have hiss : s.issuers [sid] = [th.team] := by
    simp [State.issuers, h.thread, List.eraseDups]
    rfl
  have hwh : (g.threads.length == 32) = false := by simp [h.only]
  have hg : (if f.collective then f.gather gid g [] (s.asSeen gid g) g.threads else []) = peersOf f s gid g sid th tm := by
    unfold peersOf; rw [Form.gather_alone h]
  have hs0 : (if (decide ((s.core g.core).lastGroup = some gid) || false) = true then s else s.dropLatches g.threads)
      = s.asSeen gid g := by simp [State.asSeen]
  have hno : (g.threads.filter fun x => !PartIssue.none'.done.contains x) = [sid] := by simp [h.only, PartIssue.none']
  have hni : g.threads.any (f.notIssuable (s.asSeen gid g) g) = false := by
    rw [h.only, List.any_cons, h.issuable]; rfl
  have hrun : f.run act s = f.finish gid g s
      (let b := f.lane act gid g (peersOf f s gid g sid th tm) false (s.asSeen gid g) (PartIssue.none'.acc (s.asSeen gid g) s) sid
       if b.held then b else { b with done := sid :: b.done }) := by
    unfold Form.run
    simp only [h.issuing, h.group, h.whole, Option.isSome_none, Option.getD_none, hs0, hni, hg, hwh, Option.isNone_none,
      Bool.true_and, Bool.false_and, Bool.false_eq_true, if_false, hno, List.foldl_cons, List.foldl_nil]
  rw [hrun, hl]
  generalize act (laneOf f s gid g sid th tm (peersOf f s gid g sid th tm) false) (s.asSeen gid g) = r
  clear hrun hl hg hs0 hno hni hwh
  have hch : s.issuers g.threads = [th.team] := by rw [h.only, hiss]
  unfold Form.finish
  cases r
  case block w =>
    cases w <;> simp only [PartIssue.acc, PartIssue.none', h.whole, hch, State.raiseAll, List.foldl_cons, List.foldl_nil,
      Option.isSome_none, Bool.and_self, Bool.false_eq_true, if_false] <;> rfl
  case ok s' out =>
    by_cases hc : f.collective = true
    · simp only [PartIssue.acc, PartIssue.none', h.whole, hch, State.raiseAll, hc, if_true, List.foldl_map, List.foldl_cons,
        List.foldl_nil, Option.isSome_none, Bool.and_self, Bool.false_eq_true, if_false]
      rfl
    · simp only [PartIssue.acc, PartIssue.none', h.whole, hch, State.raiseAll, hc, List.foldl_cons, List.foldl_nil,
        Option.isSome_none, Bool.and_self, Bool.false_eq_true, if_false]
      rfl
  case hold => simp [PartIssue.acc, PartIssue.none']
  case send k => simp [PartIssue.acc, PartIssue.none']
  all_goals
    simp only [PartIssue.acc, PartIssue.none', h.whole, hch, State.raiseAll, List.foldl_cons, List.foldl_nil,
      Option.isSome_none, Bool.and_self, Bool.false_eq_true, if_false]
    rfl

/-! ### Words that write registers -/

theorem State.writeDst_eq (s : State) (sid : Nat) {d : BitVec 6} (v : Val) (hd : dstW d = none) :
    s.writeDst sid d v = s.updThread sid fun th => th.write d v := by
  simp [State.writeDst, hd]

/-- Writes to registers, one after the other. -/
theorem State.writeDsts_eq (sid : Nat) {out : List (BitVec 6 × Val)} (hd : ∀ o ∈ out, dstW o.1 = none) (s : State) :
    (out.foldl (fun s o => s.writeDst sid o.1 o.2) s) = { s with threads := (out.foldl (fun s o => s.writeDst sid o.1 o.2) s).threads }
    ∧ (∀ i, i ≠ sid → tget (out.foldl (fun s o => s.writeDst sid o.1 o.2) s).threads i = tget s.threads i)
    ∧ tget (out.foldl (fun s o => s.writeDst sid o.1 o.2) s).threads sid
      = (tget s.threads sid).map fun th => out.foldl (fun th o => th.write o.1 o.2) th := by
  induction out generalizing s with
  | nil => exact ⟨rfl, fun _ _ => rfl, by simp⟩
  | cons o r ih =>
    have ho := hd o (by simp)
    obtain ⟨h1, h2, h3⟩ := ih (fun o ho => hd o (by simp [ho])) (s.writeDst sid o.1 o.2)
    rw [State.writeDst_eq _ _ _ ho] at h1 h2 h3
    simp only [List.foldl_cons, State.writeDst_eq _ _ _ ho]
    refine ⟨?_, ?_, ?_⟩
    · rw [h1]; rfl
    · intro i hi; rw [h2 i hi, State.threads_updThread_other _ _ hi]
    · rw [h3]; simp only [State.threads_updThread_same, Option.map_map]; rfl

/-- The frame reaches back over a change of the word's own thread. -/
theorem WordFrame.back {s s' t : State} {gid sid tid core : Nat} (h : WordFrame s' t gid sid tid core)
    (he : s' = { s with threads := s'.threads }) (ht : ∀ i, i ≠ sid → tget s'.threads i = tget s.threads i) :
    WordFrame s t gid sid tid core := by
  have hc : ∀ i, s'.core i = s.core i := fun i => by rw [he]; rfl
  have hx : ∀ i, s'.ctx i = s.ctx i := fun i => by rw [he]; rfl
  constructor
  case threads => intro i hi; rw [h.threads i hi, ht i hi]
  case groups => intro i hi; rw [h.groups i hi, he]
  case teams => intro i; rw [h.teams i, he]
  case ctxs => intro i; rw [← hx]; exact h.ctxs i
  case cores => intro i; rw [← hc]; exact h.cores i
  case others => intro i h1 h2; rw [← hc]; exact h.others i h1 h2
  all_goals
    first
    | exact h.mem.trans (by rw [he]) | exact h.clusters.trans (by rw [he]) | exact h.cards.trans (by rw [he])
    | exact h.ops.trans (by rw [he]) | exact h.posts.trans (by rw [he]) | exact h.streams.trans (by rw [he])
    | exact h.hostqs.trans (by rw [he]) | exact h.ctl.trans (by rw [he]) | exact h.journal.trans (by rw [he])
    | exact h.time.trans (by rw [he]) | exact h.series.trans (by rw [he]) | exact h.package.trans (by rw [he])
    | exact h.fabric.trans (by rw [he]) | exact h.agenda.trans (by rw [he]) | exact h.clk.trans (by rw [he])

/-- A word whose lane's effect leaves its thread in its group. -/
theorem Form.run_ok {f : Form} {act : Lane → State → LaneOut} {s s' : State} {gid : Nat} {g : Group} {sid : Nat}
    {th : Thread} {tm : Team} {out : List (BitVec 6 × Val)} (h : Ready f s gid g sid th tm)
    (ha : act (laneOf f s gid g sid th tm (peersOf f s gid g sid th tm) false) (s.asSeen gid g) = .ok s' out) :
    ∃ t, f.run act s = .next t ∧
      ∀ th2 g2, tget (out.foldl (fun s o => s.writeDst sid o.1 o.2) (f.popAll s' th.team)).threads sid = some th2 →
        tget (out.foldl (fun s o => s.writeDst sid o.1 o.2) (f.popAll s' th.team)).groups gid = some g2 →
        g2.threads = [sid] →
        WordFrame (out.foldl (fun s o => s.writeDst sid o.1 o.2) (f.popAll s' th.team)) t gid sid th.team g.core
        ∧ At t gid sid th2 g.run (g.pc + 4) :=
  ⟨_, by rw [Form.run_alone h, ha], fun _ _ ht hg ho => wordEnd_frame h.only hg ho ht⟩

/-- A word whose lane's effect is to go on at another PC. -/
theorem Form.run_goto {f : Form} {act : Lane → State → LaneOut} {s s' : State} {gid : Nat} {g : Group} {sid : Nat}
    {th : Thread} {tm : Team} {p : Word} (h : Ready f s gid g sid th tm)
    (ha : act (laneOf f s gid g sid th tm (peersOf f s gid g sid th tm) false) (s.asSeen gid g) = .goto s' p) :
    ∃ t, f.run act s = .next t ∧
      ∀ th2 g2, tget (f.popAll s' th.team).threads sid = some th2 → tget (f.popAll s' th.team).groups gid = some g2 →
        g2.threads = [sid] →
        WordFrame (f.popAll s' th.team) t gid sid th.team g.core ∧ At t gid sid th2 g.run p :=
  ⟨_, by rw [Form.run_alone h, ha], fun _ _ ht hg ho => wordEnd_frame h.only hg ho ht⟩

/-- A lane sees the turn `u` of a word of form `f`. -/
structure Lane.Of (l : Lane) (f : Form) (u : Turn) : Prop where
  src : ∀ i, l.src i = u.src i
  sid : l.sid = u.sid
  tid : l.tid = u.th.team
  thread : l.thread = u.th
  team : l.team = u.tm
  pc : l.pc = u.g.pc
  saved : l.saved = u.g.runPc
  vals : l.vals = u.vals
  mods : l.mods = u.mods
  peers : l.peers = if f.collective then [(u.sid, u.vals.map Val.word)] else []
  whole : l.whole = false
  /-- what the state of a turn holds -/
  held : tget u.s.threads u.sid = some u.th ∧ tget u.s.teams u.th.team = some u.tm ∧ tget u.s.groups u.gid = some u.g
    ∧ u.g.threads = [u.sid] ∧ u.th.cond = .inGroup u.gid

theorem laneOf_of {f : Form} {s : State} {gid : Nat} {g : Group} {sid : Nat} {th : Thread} {tm : Team}
    (h : Ready f s gid g sid th tm) :
    (laneOf f s gid g sid th tm (peersOf f s gid g sid th tm) false).Of f (turnOf f s gid g sid th tm) := by
  have he := State.asSeen_eq s gid g
  refine ⟨fun _ => rfl, rfl, (seen_team s gid g th).symm, rfl, rfl, rfl, rfl, rfl, rfl, rfl, rfl, ?_⟩
  refine ⟨State.asSeen_thread h.only h.thread, ?_, ?_, h.only, ?_⟩
  · change tget (s.asSeen gid g).teams (Machine.seen s gid g th).team = _; rw [he, seen_team]; exact h.team
  · change tget (s.asSeen gid g).groups gid = _; rw [he]; exact h.group
  · exact (seen_cond s gid g th).trans h.inGroup

/-- Words whose lane answers as their statement says act so. -/
theorem acts_of {i : Instr} {f : Form} {act : Lane → State → LaneOut} {eff : Turn → Option Done}
    (hx : ∀ s, exec i s = f.run act s)
    (ha : ∀ (u : Turn) (l : Lane) (d : Done), l.Of f u → eff u = some d →
      (act l u.s = .ok d.s d.out ∧ d.pc = u.g.pc + 4) ∨ (act l u.s = .goto d.s d.pc ∧ d.out = [])) : Acts i f eff := by
  intro s gid g sid th tm h d hd
  obtain ⟨ha, hp⟩ | ⟨ha, ho⟩ := ha _ _ d (laneOf_of h) hd
  · rw [hx, hp]; exact Form.run_ok h ha
  · rw [hx]; simpa only [Done.state, ho, List.foldl_nil] using Form.run_goto h ha

theorem NoQueue.dst {f : Form} (hq : NoQueue f) (hp : f.pushes ≠ 0) {d : BitVec 6} (hd : f.dst = some d) : dstW d = none := by
  have h := hq.2.resolve_left hp
  rwa [hd] at h

theorem NoQueue.popAll {f : Form} (hq : NoQueue f) (s : State) (tid : Nat) : f.popAll s tid = s := by
  unfold Form.popAll; rw [hq.1]; rfl

/-- A word without hardware queues that acts on its thread's registers only. -/
theorem Acts.plain {i : Instr} {f : Form} {eff : Turn → Option Done} (h : Acts i f eff) {s : State} {gid : Nat} {g : Group}
    {sid : Nat} {th th1 : Thread} {tm : Team} (hq : NoQueue f) (hr : Ready f s gid g sid th tm) {d : Done}
    (hd : eff (turnOf f s gid g sid th tm) = some d) (he : d.s = { s with threads := d.s.threads })
    (ht : tget d.s.threads sid = some th1) (hot : ∀ i, i ≠ sid → tget d.s.threads i = tget s.threads i)
    (ho : ∀ o ∈ d.out, dstW o.1 = none) :
    ∃ t, exec i s = .next t ∧ WordFrame s t gid sid th.team g.core
      ∧ At t gid sid (d.out.foldl (fun th o => th.write o.1 o.2) th1) g.run d.pc := by
  obtain ⟨t, h1, h2⟩ := h s gid g sid th tm hr d hd
  obtain ⟨k1, k2, k3⟩ := State.writeDsts_eq sid ho d.s
  have hst : d.state f sid th.team = d.out.foldl (fun s o => s.writeDst sid o.1 o.2) d.s := by
    unfold Done.state; rw [hq.popAll]
  have hg : tget d.s.groups gid = some g := by rw [he]; exact hr.group
  have h3 := h2 (d.out.foldl (fun th o => th.write o.1 o.2) th1) g
    (by rw [hst, k3, ht]; rfl) (by rw [hst, k1]; exact hg) hr.only
  rw [hst] at h3
  exact ⟨t, h1, WordFrame.back (s' := d.s) (h3.1.back k1 k2) he hot, h3.2⟩

/-- The state as the word finds it differs in the thread's latches only. -/
theorem Ready.seen {f : Form} {s : State} {gid : Nat} {g : Group} {sid : Nat} {th : Thread} {tm : Team}
    (h : Ready f s gid g sid th tm) :
    s.asSeen gid g = { s with threads := (s.asSeen gid g).threads } ∧ tget (s.asSeen gid g).threads sid = some (seen s gid g th)
    ∧ ∀ i, i ≠ sid → tget (s.asSeen gid g).threads i = tget s.threads i :=
  ⟨State.asSeen_eq s gid g, State.asSeen_thread h.only h.thread, fun _ hi => State.asSeen_other h.only hi⟩

/-- Instructions of `Form.value` compute their value. -/
theorem computes_value {i : Instr} {f : Form} {op : Lane → Word} {d : BitVec 6}
    {val : State → Nat → Thread → Team → Mods → List Word → Word} (hx : ∀ s, exec i s = f.value op s) (hp : f.pushes = 1)
    (hd : f.dst = some d)
    (hv : ∀ s gid g sid th tm, op (laneOf f s gid g sid th tm (peersOf f s gid g sid th tm) false)
      = val s sid (Machine.seen s gid g th) tm g.mods (wordsOf f s gid g sid th tm))
    (hs : ∀ s x sid th tm m w, val { s with threads := x } sid th tm m w = val s sid th tm m w := by
      intro s x sid th tm m w; rfl) : Computes i f val := by
  have hs' : ∀ s gid g sid th tm m w, val (State.asSeen s gid g) sid th tm m w = val s sid th tm m w := by
    intro s gid g sid th tm m w; rw [State.asSeen_eq]; exact hs _ _ _ _ _ _ _
  have ha : Acts i f fun u => some
      { s := u.s, out := [(f.dst.getD 0, .known (val u.s u.sid u.th u.tm u.mods (u.vals.map Val.word)))], pc := u.next } := by
    intro s gid g sid th tm h d he
    obtain rfl := Option.some.inj he
    rw [hx]
    exact Form.run_ok h (by simp only [turnOf, hv, hs']; rfl)
  refine ⟨?_, ha⟩
  intro s gid g sid th tm hq h
  obtain ⟨h1, h2, h3⟩ := h.seen
  have := ha.plain hq h rfl h1 h2 h3 (by simp [hd, hq.dst (by omega) hd])
  simpa only [turnOf, hs', wordsOf, Turn.next, List.foldl_cons, List.foldl_nil] using this

/-- Words whose lane answers with one known value and no other effect compute it. -/
theorem computes_run {i : Instr} {f : Form} {act : Lane → State → LaneOut} {d : BitVec 6}
    {val : State → Nat → Thread → Team → Mods → List Word → Word} (hx : ∀ s, exec i s = f.run act s) (hp : f.pushes = 1)
    (hd : f.dst = some d)
    (ha : ∀ (u : Turn) (l : Lane), l.Of f u →
      act l u.s = .ok u.s [(d, .known (val u.s u.sid u.th u.tm u.mods (u.vals.map Val.word)))])
    (hs : ∀ s x sid th tm m w, val { s with threads := x } sid th tm m w = val s sid th tm m w := by
      intro s x sid th tm m w; rfl) : Computes i f val := by
  have hs' : ∀ s gid g sid th tm m w, val (State.asSeen s gid g) sid th tm m w = val s sid th tm m w := by
    intro s gid g sid th tm m w; rw [State.asSeen_eq]; exact hs _ _ _ _ _ _ _
  have hA : Acts i f fun u => some
      { s := u.s, out := [(f.dst.getD 0, .known (val u.s u.sid u.th u.tm u.mods (u.vals.map Val.word)))], pc := u.next } := by
    refine acts_of hx fun u l e hl h => .inl ?_
    obtain rfl := Option.some.inj h
    exact ⟨by rw [ha u l hl, hd]; rfl, rfl⟩
  refine ⟨?_, hA⟩
  intro s gid g sid th tm hq h
  obtain ⟨h1, h2, h3⟩ := h.seen
  have := hA.plain hq h rfl h1 h2 h3 (by simp [hd, hq.dst (by omega) hd])
  simpa only [turnOf, hs', wordsOf, Turn.next, List.foldl_cons, List.foldl_nil] using this

/-- Instructions of `Form.pred` set their predicate. -/
theorem sets_pred {i : Instr} {f : Form} {p : BitVec 3} {op : Lane → Bool}
    {val : State → Nat → Thread → Team → Mods → List Word → Bool} (hx : ∀ s, exec i s = f.pred p op s)
    (hv : ∀ s gid g sid th tm, op (laneOf f s gid g sid th tm (peersOf f s gid g sid th tm) false)
      = val s sid (Machine.seen s gid g th) tm g.mods (wordsOf f s gid g sid th tm))
    (hs : ∀ s x sid th tm m w, val { s with threads := x } sid th tm m w = val s sid th tm m w := by
      intro s x sid th tm m w; rfl) : Sets i f p val := by
  have hs' : ∀ s gid g sid th tm m w, val (State.asSeen s gid g) sid th tm m w = val s sid th tm m w := by
    intro s gid g sid th tm m w; rw [State.asSeen_eq]; exact hs _ _ _ _ _ _ _
  have ha : Acts i f fun u => some
      { s := u.s.updThread u.sid fun th => th.setPred p (val u.s u.sid u.th u.tm u.mods (u.vals.map Val.word)), pc := u.next } := by
    intro s gid g sid th tm h d he
    obtain rfl := Option.some.inj he
    rw [hx]
    exact Form.run_ok h (by simp only [turnOf, hv, hs']; rfl)
  refine ⟨?_, ha⟩
  intro s gid g sid th tm hq h
  obtain ⟨h1, h2, h3⟩ := h.seen
  have hu : ∀ v, (s.asSeen gid g).updThread sid (fun th => th.setPred p v)
      = { s with threads := ((s.asSeen gid g).updThread sid fun th => th.setPred p v).threads } := by
    intro v; rw [h1]; rfl
  have := ha.plain (th1 := (Machine.seen s gid g th).setPred p (val s sid (Machine.seen s gid g th) tm g.mods
    (wordsOf f s gid g sid th tm))) hq h rfl (hu _) (by simp only [turnOf, hs']; simp [h2, wordsOf])
    (by intro i hi; simp only [turnOf]; rw [State.threads_updThread_other _ _ hi]; exact h3 i hi) (by simp)
  exact this

/-- Words whose lane sets one predicate and has no other effect set it. -/
theorem sets_run {i : Instr} {f : Form} {p : BitVec 3} {act : Lane → State → LaneOut}
    {val : State → Nat → Thread → Team → Mods → List Word → Bool} (hx : ∀ s, exec i s = f.run act s)
    (ha : ∀ (u : Turn) (l : Lane), l.Of f u →
      act l u.s = .ok (u.s.updThread u.sid fun th => th.setPred p (val u.s u.sid u.th u.tm u.mods (u.vals.map Val.word))) [])
    (hs : ∀ s x sid th tm m w, val { s with threads := x } sid th tm m w = val s sid th tm m w := by
      intro s x sid th tm m w; rfl) : Sets i f p val := by
  have hs' : ∀ s gid g sid th tm m w, val (State.asSeen s gid g) sid th tm m w = val s sid th tm m w := by
    intro s gid g sid th tm m w; rw [State.asSeen_eq]; exact hs _ _ _ _ _ _ _
  have hA : Acts i f fun u => some
      { s := u.s.updThread u.sid fun th => th.setPred p (val u.s u.sid u.th u.tm u.mods (u.vals.map Val.word)), pc := u.next } := by
    refine acts_of hx fun u l e hl h => .inl ?_
    obtain rfl := Option.some.inj h
    exact ⟨ha u l hl, rfl⟩
  refine ⟨?_, hA⟩
  intro s gid g sid th tm hq h
  obtain ⟨h1, h2, h3⟩ := h.seen
  have hu : ∀ v, (s.asSeen gid g).updThread sid (fun th => th.setPred p v)
      = { s with threads := ((s.asSeen gid g).updThread sid fun th => th.setPred p v).threads } := by
    intro v; rw [h1]; rfl
  have := hA.plain (th1 := (Machine.seen s gid g th).setPred p (val s sid (Machine.seen s gid g th) tm g.mods
    (wordsOf f s gid g sid th tm))) hq h rfl (hu _) (by simp only [turnOf, hs']; simp [h2, wordsOf])
    (by intro i hi; simp only [turnOf]; rw [State.threads_updThread_other _ _ hi]; exact h3 i hi) (by simp)
  exact this

/-! ### Words after which the thread is in its group no more -/

/-- The end of a word of a thread that has left its group. -/
theorem goneEnd_spec {f : Form} {s b : State} {gid : Nat} {g : Group} {sid tid : Nat} {ws : List Nat}
    (ho : g.threads = [sid]) (hg : tget s.groups gid = none) :
    let r : State :=
      { ((f.settle gid g { PartIssue.none'.acc (s.touchOf b sid ws) b with left := true }).charge [tid]) with stalled := false }
    WordFrame s r gid sid tid g.core ∧ tget r.groups gid = none
    ∧ tget r.threads sid = (tget s.threads sid).map fun th => th.drop g.run := by
  suffices h : ∀ s : State, tget s.groups gid = none →
      let r : State := { ((f.settle gid g { PartIssue.none'.acc s b with left := true }).charge [tid]) with stalled := false }
      WordFrame s r gid sid tid g.core ∧ tget r.groups gid = none
      ∧ tget r.threads sid = (tget s.threads sid).map fun th => th.drop g.run by
    obtain ⟨h1, h2, h3⟩ := h (s.touchOf b sid ws) (by rw [State.touchOf_eq]; exact hg)
    exact ⟨h1.untouch, h2, by rw [h3, State.touchOf_threads]⟩
  clear hg
  intro s hg r
  have hset : ∃ h1 : CoreSt → CoreSt,
      (∀ c, h1 c = { c with rotation := (h1 c).rotation, lastGroup := (h1 c).lastGroup, holder := (h1 c).holder })
      ∧ f.settle gid g { PartIssue.none'.acc s b with left := true }
        = (s.updThread sid fun th => th.drop g.run).updCore g.core h1 := by
    unfold Form.settle
    simp only [PartIssue.acc, PartIssue.none', ho, List.contains_nil, Bool.not_false, List.any_nil, Bool.and_self,
      List.filter_cons_of_pos, List.filter_nil, List.foldl_cons, List.foldl_nil, State.updCore_groups, State.updThread_groups,
      hg]
    exact ⟨_, fun c => rfl, rfl⟩
  obtain ⟨h1, hh, he⟩ := hset
  obtain ⟨b1, b2, b3⟩ := charge_spec (f.settle gid g { PartIssue.none'.acc s b with left := true }) tid
  generalize hq : (f.settle gid g { PartIssue.none'.acc s b with left := true }).charge [tid] = q at b1 b2 b3
  rw [he] at b1 b2 b3
  have hr : r = { q with stalled := false } := by simp only [r, hq]
  have hcore : ∀ i, r.core i = if i = g.core then h1 (s.core i) else s.core i := by
    intro i
    rw [hr, b1]
    change (((s.updThread sid fun th => th.drop g.run).updCore g.core h1).core i) = _
    rw [State.core_updCore]
    split
    · next e => subst e; rfl
    · rfl
  refine ⟨?_, ?_, ?_⟩
  · constructor
    case threads => intro i hi; rw [hr, b1]; simp [State.threads_updThread, hi]
    case groups => intro i hi; rw [hr, b1]; rfl
    case teams => intro i; rw [show r.teams = q.teams by rw [hr], b2]; rfl
    case ctxs => intro i; rw [show r.ctx i = q.ctx i by rw [hr]; rfl, b3]; rfl
    case cores =>
      intro i; rw [hcore i]
      split
      · rw [hh]
      · rfl
    case others => intro i h4 h5; rw [hcore i, if_neg h4]
    all_goals rw [hr, b1]; rfl
  · rw [hr, b1]; exact hg
  · rw [hr, b1]; simp

/-- Words whose lane answers that its thread is gone leave so. -/
theorem leaves_of {i : Instr} {f : Form} {act : Lane → State → LaneOut} {eff : Turn → Option State}
    (hx : ∀ s, exec i s = f.run act s)
    (ha : ∀ (u : Turn) (l : Lane) (s1 : State), l.Of f u → eff u = some s1 → act l u.s = .gone s1) : Leaves i f eff := by
  intro s gid g sid th tm h s1 hd
  refine ⟨_, by rw [hx, Form.run_alone h]; erw [ha _ _ s1 (laneOf_of h) hd], fun hg => goneEnd_spec h.only hg⟩

/-! ### Words after which the thread halts -/

theorem Thread.drop_fields (th : Thread) (ws : List IWord) :
    (th.drop ws).cond = th.cond ∧ (th.drop ws).team = th.team ∧ (th.drop ws).q = th.q ∧ (th.drop ws).v = th.v
    ∧ (th.drop ws).preds = th.preds ∧ (th.drop ws).wid = th.wid := by
  unfold Thread.drop
  cases runDropX ws <;> exact ⟨rfl, rfl, rfl, rfl, rfl, rfl⟩

/-- The end of a word of a group of one thread that neither stays nor has left: the group ceases. -/
theorem haltEnd_spec {f : Form} {s b : State} {gid : Nat} {g g' : Group} {sid tid : Nat} {th : Thread}
    {fs : List (Nat × FaultInfo × Word)} {w : Bool}
    (ho : g.threads = [sid]) (hg : tget s.groups gid = some g') (ht : tget s.threads sid = some th) :
    let r : State := (f.settle gid g { PartIssue.none'.acc s b with faults := fs, left := w }).charge [tid]
    r = { s with threads := r.threads, groups := r.groups, cores := r.cores, teams := r.teams, ctxs := r.ctxs }
    ∧ tget r.groups gid = none
    ∧ (∃ th2, tget r.threads sid = some th2 ∧ th2.cond = th.cond ∧ th2.q = th.q ∧ th2.v = th.v ∧ th2.preds = th.preds
        ∧ th2.team = th.team ∧ th2.wid = th.wid)
    ∧ (∀ i, i ≠ sid → tget r.threads i = tget s.threads i) ∧ (∀ i, i ≠ gid → tget r.groups i = tget s.groups i)
    ∧ (∀ i, tget r.teams i = (tget s.teams i).map fun m => if i = tid then { m with issued := m.issued + 1 } else m)
    ∧ (∀ i, r.ctx i = { s.ctx i with capIssued := (r.ctx i).capIssued })
    ∧ (∀ i, (r.core i).stop = (s.core i).stop) ∧ ∀ p ∈ r.threads, p.1 = sid ∨ p ∈ s.threads := by
  intro r
  have hset : ∃ (h1 h2 : CoreSt → CoreSt) (s1 : State),
      (∀ c, (h1 c).stop = c.stop) ∧ (∀ c, (h2 c).stop = c.stop)
      ∧ (s1 = s ∨ s1 = s.updThread sid fun th => th.drop g.run)
      ∧ f.settle gid g { PartIssue.none'.acc s b with faults := fs, left := w }
        = ({ (s1.updCore g.core h1) with groups := tdel s1.groups gid }).updCore g.core h2 := by
    have he : ([] : List Word).eraseDups = [] := rfl
    have hdl : ∀ s : State, s.dropLatches [] = s := fun _ => rfl
    by_cases hf : fs.any (fun f => f.1 == sid && f.2.2 == g.runPc) = true
    · refine ⟨fun c => { c with
          rotation := if c.rotation.contains gid then c.rotation.erase gid ++ [gid] else c.rotation,
          lastGroup := some gid, holder := none }, fun c => { c with rotation := c.rotation.erase gid }, s,
        fun c => rfl, fun c => rfl, .inl rfl, ?_⟩
      unfold Form.settle
      simp only [PartIssue.acc, PartIssue.none', ho, List.contains_nil, Bool.not_false, hf, Bool.not_true, Bool.and_false,
        List.filter_cons_of_neg, List.filter_nil, Bool.false_eq_true, not_false_eq_true, List.foldl_nil,
        State.updCore_groups, hg, List.map_nil, he, List.length_nil, List.isEmpty_nil, if_true, Nat.add_zero, Nat.zero_le,
        hdl, ite_self]
    · refine ⟨fun c => { c with
          rotation := if c.rotation.contains gid then c.rotation.erase gid ++ [gid] else c.rotation,
          lastGroup := some gid, holder := none }, fun c => { c with rotation := c.rotation.erase gid },
        s.updThread sid fun th => th.drop g.run, fun c => rfl, fun c => rfl, .inr rfl, ?_⟩
      unfold Form.settle
      simp only [PartIssue.acc, PartIssue.none', ho, List.contains_nil, Bool.not_false, hf, Bool.and_self,
        List.filter_cons_of_pos, List.filter_nil, List.foldl_cons, List.foldl_nil, State.updCore_groups,
        State.updThread_groups, hg, List.map_nil, he, List.length_nil, List.isEmpty_nil, if_true, Nat.add_zero, Nat.zero_le,
        hdl, ite_self]
  obtain ⟨h1, h2, s1, k1, k2, hs1, he⟩ := hset
  have hs1e : s1 = { s with threads := s1.threads, cores := s1.cores } := by
    rcases hs1 with e | e
    · rw [e]
    · rw [e]; rfl
  have hs1c : ∀ i, (s1.core i).stop = (s.core i).stop := by
    intro i
    rcases hs1 with e | e
    · rw [e]
    · rw [e]; rfl
  have hs1t : ∃ th2, tget s1.threads sid = some th2 ∧ th2.cond = th.cond ∧ th2.q = th.q ∧ th2.v = th.v
      ∧ th2.preds = th.preds ∧ th2.team = th.team ∧ th2.wid = th.wid := by
    rcases hs1 with e | e
    · exact ⟨th, by rw [e]; exact ht, rfl, rfl, rfl, rfl, rfl, rfl⟩
    · obtain ⟨a1, a2, a3, a4, a5, a6⟩ := Thread.drop_fields th g.run
      exact ⟨th.drop g.run, by rw [e]; simp [ht], a1, a3, a4, a5, a2, a6⟩
  have hs1o : ∀ i, i ≠ sid → tget s1.threads i = tget s.threads i := by
    intro i hi
    rcases hs1 with e | e
    · rw [e]
    · rw [e]; simp [State.threads_updThread, hi]
  obtain ⟨b1, b2, b3⟩ := charge_spec (f.settle gid g { PartIssue.none'.acc s b with faults := fs, left := w }) tid
  change r = _ at b1
  change ∀ i, tget r.teams i = _ at b2
  change ∀ i, r.ctx i = { (f.settle gid g { PartIssue.none'.acc s b with faults := fs, left := w }).ctx i with
    capIssued := (r.ctx i).capIssued } at b3
  generalize r = q at b1 b2 b3
  rw [he] at b1 b2 b3
  have hthr : q.threads = s1.threads := by rw [b1]; rfl
  have hgrp : q.groups = tdel s.groups gid := by rw [b1, hs1e]; rfl
  have hcr : ∀ i, (q.core i).stop = (s.core i).stop := by
    intro i
    rw [b1]
    change ((State.updCore { (s1.updCore g.core h1) with groups := tdel s1.groups gid } g.core h2).core i).stop = _
    rw [State.core_updCore]
    split
    · next e =>
      rw [k2]
      change ((s1.updCore g.core h1).core g.core).stop = _
      rw [State.core_updCore_same, k1, hs1c, e]
    · next e =>
      change ((s1.updCore g.core h1).core i).stop = _
      rw [State.core_updCore_other _ _ e, hs1c]
  refine ⟨?_, ?_, ?_, ?_, ?_, ?_, ?_, hcr, ?_⟩
  · rw [b1, hs1e]; rfl
  · rw [hgrp, tget_tdel_same]
  · rw [hthr]; exact hs1t
  · intro i hi; rw [hthr]; exact hs1o i hi
  · intro i hi; rw [hgrp, tget_tdel_other _ hi]
  · intro i; rw [b2, hs1e]; rfl
  · intro i; rw [b3, hs1e]; rfl
  · intro p hp
    rw [hthr] at hp
    rcases hs1 with e | e
    · rw [e] at hp; exact .inr hp
    · rw [e] at hp; exact mem_tupd hp

/-- A raised record joins the waiting records of its context. -/
theorem State.postRecord_waiting (s : State) (r : TrapRec) :
    ((s.postRecord r).ctx r.ctx).waiting = insertRec { r with clk := s.clk } (s.ctx r.ctx).waiting := by
  unfold State.postRecord; rw [State.ctx_updCtx_same]

/-! ### Taking an exception (R110 to R112) -/

/-- A thread that leaves what holds it: only its latches, groups and cores change; no group comes into being. -/
theorem State.detach_spec (s : State) (x : Nat) :
    let r := s.detach x
    r = { s with threads := r.threads, groups := r.groups, cores := r.cores }
    ∧ (∀ k, k ≠ x → tget r.threads k = tget s.threads k)
    ∧ (∃ u : Thread → Thread, (∀ th, u th = { th with b0 := (u th).b0, b1 := (u th).b1 })
        ∧ tget r.threads x = (tget s.threads x).map u)
    ∧ (∀ k, tget s.groups k = none → tget r.groups k = none) := by
  intro r
  have hr : r = s.detach x := rfl
  unfold State.detach at hr
  split at hr
  · rw [hr]
    exact ⟨rfl, fun _ _ => rfl, ⟨id, fun _ => rfl, by simp [State.leaveBin]⟩, fun _ h => h⟩
  · next gr hgr =>
    unfold State.leaveGroup at hr
    cases ht : tget s.threads x with
    | none => rw [ht] at hgr; simp at hgr
    | some th =>
      simp only [ht, Option.map_some, Option.some.injEq] at hr hgr
      simp only [hgr] at hr
      have hmap : ∀ k, k ≠ x → tget (s.updThread x fun th => { th with b0 := none, b1 := none }).threads k = tget s.threads k :=
        fun k hk => State.threads_updThread_other _ _ hk
      have hsame : tget (s.updThread x fun th => { th with b0 := none, b1 := none }).threads x
          = (some th).map fun th => { th with b0 := none, b1 := none } := by simp [ht]
      simp only [State.updThread_groups] at hr
      cases hg : tget s.groups gr with
      | none =>
        simp only [hg] at hr
        rw [hr]
        exact ⟨rfl, hmap, ⟨_, fun _ => rfl, hsame⟩, fun _ h => h⟩
      | some g =>
        simp only [hg] at hr
        split at hr
        · rw [hr]
          refine ⟨rfl, hmap, ⟨_, fun _ => rfl, hsame⟩, fun k hk => ?_⟩
          change tget (tdel s.groups gr) k = none
          by_cases e : k = gr
          · rw [e, tget_tdel_same]
          · rw [tget_tdel_other _ e, hk]
        · rw [hr]
          refine ⟨rfl, hmap, ⟨_, fun _ => rfl, hsame⟩, fun k hk => ?_⟩
          change tget (tset s.groups gr _) k = none
          rw [tget_tset_other _ _ (by rintro rfl; rw [hg] at hk; cases hk), hk]
  · rw [hr]
    exact ⟨rfl, fun _ _ => rfl, ⟨id, fun _ => rfl, by simp⟩, fun _ h => h⟩

/-- The threads of a team leave what holds them and are frozen. -/
theorem freezeThreads_spec (l : List Nat) (s : State) :
    let r := l.foldl (fun s sid => (s.detach sid).updThread sid fun th =>
      { th with cond := if th.cond = .ended then .ended else .frozen, b0 := none, b1 := none }) s
    r = { s with threads := r.threads, groups := r.groups, cores := r.cores }
    ∧ (∀ k, k ∉ l → tget r.threads k = tget s.threads k)
    ∧ (∀ k, tget s.groups k = none → tget r.groups k = none)
    ∧ ∀ k th, tget s.threads k = some th → th.cond = .frozen → th.b0 = none → th.b1 = none → tget r.threads k = some th := by
  induction l generalizing s with
  | nil => exact ⟨rfl, fun _ _ => rfl, fun _ h => h, fun _ _ h _ _ _ => h⟩
  | cons x l ih =>
    intro r
    obtain ⟨a1, a2, ⟨u, a3, a4⟩, a5⟩ := State.detach_spec s x
    obtain ⟨b1, b2, b3, b4⟩ := ih ((s.detach x).updThread x fun th =>
      { th with cond := if th.cond = .ended then .ended else .frozen, b0 := none, b1 := none })
    have hr : r = (l.foldl (fun s sid => (s.detach sid).updThread sid fun th =>
      { th with cond := if th.cond = .ended then .ended else .frozen, b0 := none, b1 := none }) ((s.detach x).updThread x fun th =>
      { th with cond := if th.cond = .ended then .ended else .frozen, b0 := none, b1 := none })) := rfl
    rw [← hr] at b1 b2 b3 b4
    refine ⟨by rw [b1, a1]; rfl, ?_, ?_, ?_⟩
    · intro k hk
      simp only [List.mem_cons, not_or] at hk
      rw [b2 k hk.2, State.threads_updThread_other _ _ hk.1, a2 k hk.1]
    · intro k hk; exact b3 k (a5 k hk)
    · intro k th h1 h2 h3 h4
      refine b4 k th ?_ h2 h3 h4
      by_cases e : k = x
      · subst e
        rw [State.threads_updThread_same, a4, h1]
        rw [Option.map_some, Option.map_some, a3 th]
        obtain ⟨⟩ := th
        simp only at h2 h3 h4
        subst h2 h3 h4
        rfl
      · rw [State.threads_updThread_other _ _ e, a2 k e, h1]

/-- Taking an exception, from a state in which the thread's group has ceased. -/
theorem raise_spec {q : State} {gid sid : Nat} {th2 : Thread} {tm : Team} {e : FaultInfo} {pc saved : Word}
    (hg : tget q.groups gid = none) (ht : tget q.threads sid = some th2) (hc : th2.cond = .inGroup gid)
    (hm : tget q.teams th2.team = some tm) (hf : tm.frozen = false) (hn : e.cls ≠ .note)
    (hx : e.cls ≠ .kill) :
    let r := q.raise sid e pc saved
    (∃ th3, tget r.threads sid = some th3 ∧ th3.cond = e.stops ∧ th3.pc = saved ∧ th3.b0 = none ∧ th3.b1 = none
      ∧ th3.q = th2.q ∧ th3.v = th2.v ∧ th3.preds = th2.preds ∧ th3.team = th2.team ∧ th3.wid = th2.wid)
    ∧ tget r.groups gid = none ∧ r.mem = q.mem ∧ r.ops = q.ops
    ∧ (r.ctx tm.ctx).waiting = insertRec { recordOf q sid th2 tm e pc with clk := q.clk } (q.ctx tm.ctx).waiting
    ∧ (e.cls = .freeze → ∃ m, tget r.teams th2.team = some m ∧ m.frozen = true ∧ m.failed = true)
    ∧ (∀ k, k ≠ sid → (∀ p ∈ q.threads, p.1 = k → p.2.team ≠ th2.team) → tget r.threads k = tget q.threads k) := by
  intro r
  have hr : r = q.raise sid e pc saved := rfl
  have hdet : q.detach sid = q.updThread sid fun th => { th with b0 := none, b1 := none } := by
    unfold State.detach
    simp only [ht, Option.map_some, hc]
    unfold State.leaveGroup
    simp only [ht, hc, State.updThread_groups, hg]
  have hrec : q.threadRecord sid e pc false = some (recordOf q sid th2 tm e pc) := by
    simp only [State.threadRecord, ht, hm, Option.map_some, recordOf]
  have hfz : (tget q.teams th2.team).any Team.frozen = false := by rw [hm]; exact hf
  unfold State.raise at hr
  simp only [ht, hrec, hfz, hdet, hx, Bool.false_eq_true, if_false] at hr
  cases hk : e.cls with
  | note => exact absurd hk hn
  | kill => exact absurd hk hx
  | halt h =>
    simp only [hk] at hr
    have hst : e.stops = .halted h := by unfold FaultInfo.stops; rw [hk]
    rw [hr, hst]
    refine ⟨⟨{ th2 with pc := saved, b0 := none, b1 := none, cond := .halted h }, ?_, rfl, rfl, rfl, rfl, rfl, rfl, rfl, rfl, rfl⟩,
      hg, rfl, rfl, ?_, fun h => (by cases h), ?_⟩
    · change tget ((q.updThread sid _).updThread sid _).threads sid = _
      simp [ht]
    · exact State.postRecord_waiting _ (recordOf q sid th2 tm e pc)
    · intro k hk1 _
      change tget ((q.updThread sid _).updThread sid _).threads k = _
      rw [State.threads_updThread_other _ _ hk1, State.threads_updThread_other _ _ hk1]
  | freeze =>
    simp only [hk] at hr
    have hst : e.stops = .frozen := by unfold FaultInfo.stops; rw [hk]
    generalize hs1 : ((q.updThread sid fun th => { th with b0 := none, b1 := none }).updThread sid fun th =>
      { th with pc := saved, b0 := none, b1 := none, cond := .frozen }) = s1 at hr
    have h1t : tget s1.threads sid = some { th2 with pc := saved, b0 := none, b1 := none, cond := .frozen } := by
      rw [← hs1]; simp [ht]
    have h1o : ∀ k, k ≠ sid → tget s1.threads k = tget q.threads k := by
      intro k hk; rw [← hs1, State.threads_updThread_other _ _ hk, State.threads_updThread_other _ _ hk]
    have h1e : s1 = { q with threads := s1.threads } := by rw [← hs1]; rfl
    have h1m : tget s1.teams th2.team = some tm := by rw [h1e]; exact hm
    unfold State.freezeTeam at hr
    simp only [h1m] at hr
    obtain ⟨c1, c2, c3, c4⟩ := freezeThreads_spec (s1.threadsOf th2.team) s1
    generalize (s1.threadsOf th2.team).foldl (fun s sid => (s.detach sid).updThread sid fun th =>
      { th with cond := if th.cond = .ended then .ended else .frozen, b0 := none, b1 := none }) s1 = s2 at hr c1 c2 c3 c4
    have hsub : ∀ p ∈ s1.threads, p.1 = sid ∨ p ∈ q.threads := by
      intro p hp
      rw [← hs1] at hp
      rcases mem_tupd hp with h | h
      · exact .inl h
      · exact mem_tupd h
    have hwait : (s2.ctx tm.ctx).waiting = (q.ctx tm.ctx).waiting := by rw [c1, h1e]; rfl
    have hclk : s2.clk = q.clk := by rw [c1, h1e]
    rw [hst, hr]
    refine ⟨⟨{ th2 with pc := saved, b0 := none, b1 := none, cond := .frozen }, ?_, rfl, rfl, rfl, rfl, rfl, rfl, rfl, rfl, rfl⟩,
      ?_, ?_, ?_, ?_, fun _ => ?_, ?_⟩
    · exact c4 sid _ h1t rfl rfl rfl
    · exact c3 gid (by rw [h1e]; exact hg)
    · change s2.mem = q.mem; rw [c1, h1e]
    · change s2.ops = q.ops; rw [c1, h1e]
    · refine (State.postRecord_waiting _ (recordOf q sid th2 tm e pc)).trans ?_
      have hc : ∀ (x : State) (k : Nat) (f : Card → Card), (x.updCard k f).ctx tm.ctx = x.ctx tm.ctx := fun _ _ _ => rfl
      rw [show (recordOf q sid th2 tm e pc).ctx = tm.ctx from rfl, hc, State.ctx_updCtx_same]
      change insertRec { recordOf q sid th2 tm e pc with clk := s2.clk } (s2.ctx tm.ctx).waiting = _
      rw [hclk, hwait]
    · refine ⟨{ tm with frozen := true, failed := true }, ?_, rfl, rfl⟩
      change tget (State.updTeam s2 th2.team _).teams th2.team = _
      rw [State.teams_updTeam_same, c1, h1m]
      rfl
    · intro k hk1 hk2
      change tget s2.threads k = _
      rw [c2 k ?_, h1o k hk1]
      intro hm2
      obtain ⟨p, hp, rfl⟩ := List.mem_map.mp hm2
      obtain ⟨hp1, hp2⟩ := List.mem_filter.mp hp
      rcases hsub p hp1 with h | h
      · exact hk1 h
      · exact hk2 p h rfl (by simpa using hp2)

/-- Words whose lane answers with a halting exception halt so. -/
theorem halts_of {i : Instr} {f : Form} {h : Halt} {act : Lane → State → LaneOut} {eff : Turn → State × FaultInfo × Word}
    (hx : ∀ s, exec i s = f.run act s)
    (ha : ∀ s gid g sid th tm, Ready f s gid g sid th tm →
      let d := eff (turnOf f s gid g sid th tm)
      act (laneOf f s gid g sid th tm (peersOf f s gid g sid th tm) false) (s.asSeen gid g) = .halts d.1 d.2.1 d.2.2
      ∧ d.2.1.cls = .halt h ∧ d.1 = { (s.asSeen gid g) with cores := d.1.cores }) : Halts i f h eff := by
  intro s gid g sid th tm hq hr hf d
  obtain ⟨h1, h2, h3⟩ := ha s gid g sid th tm hr
  change act _ _ = .halts d.1 d.2.1 d.2.2 at h1
  change d.2.1.cls = _ at h2
  change d.1 = _ at h3
  obtain ⟨e1, e2, e3⟩ := hr.seen
  have hu : ∀ k, ((d.1.touchOf s sid f.reads).core k).stop = (d.1.core k).stop := fun k => by rw [State.touchOf_core]
  have h4 : d.1.touchOf s sid f.reads = { (s.asSeen gid g) with cores := (d.1.touchOf s sid f.reads).cores } := by
    rw [State.touchOf_eq, h3]
  have hrun := Form.run_alone (act := act) hr
  rw [← hx, h1] at hrun
  simp only [hq.popAll] at hrun
  generalize d.1.touchOf s sid f.reads = b at hu h4 hrun
  have hdt : tget b.threads sid = some (Machine.seen s gid g th) := by rw [h4]; exact e2
  have hdg : tget b.groups gid = some g := by rw [h4, e1]; exact hr.group
  obtain ⟨c1, c2, ⟨th2, c3, c4, c5, c6, c7, c8, c9⟩, c10, c11, c12, c13, c14, _⟩ :=
    haltEnd_spec (f := f) (b := s) (tid := th.team) (fs := [(sid, d.2.1, d.2.2)]) (w := true) hr.only hdg hdt
  refine ⟨_, hrun, ?_⟩
  clear hrun
  generalize (f.settle gid g { PartIssue.none'.acc b s with faults := [(sid, d.2.1, d.2.2)], left := true }).charge
    [th.team] = q at c1 c2 c3 c10 c11 c12 c13 c14
  rw [seen_cond, hr.inGroup] at c4
  have hteam : tget q.teams th2.team = some { tm with issued := tm.issued + 1 } := by
    rw [c12, h4, e1, c8, seen_team]; simp [hr.team]
  have hcard : q.cards = s.cards := by rw [c1, h4, e1]
  have hclk : q.clk = s.clk := by rw [c1, h4, e1]
  have hdet : q.detach sid = q.updThread sid fun th => { th with b0 := none, b1 := none } := by
    unfold State.detach
    simp only [c3, Option.map_some, c4]
    unfold State.leaveGroup
    simp only [c3, c4, State.updThread_groups, c2]
  have hwid : (Machine.seen s gid g th).wid = th.wid := by unfold Machine.seen; split <;> rfl
  have hrec : q.threadRecord sid d.2.1 g.pc false = some (recordOf s sid th tm d.2.1 g.pc) := by
    simp only [State.threadRecord, c3, hteam, Option.map_some, recordOf, hclk, c9, hwid]
    simp only [State.cardId, hcard]
  have hfz : (tget q.teams th2.team).any Team.frozen = false := by rw [hteam]; exact hf
  have hraise : q.raise sid d.2.1 g.pc d.2.2 = ((q.updThread sid fun th => { th with b0 := none, b1 := none }).updThread sid
      fun th => { th with pc := d.2.2, b0 := none, b1 := none, cond := .halted h }).postRecord
        (recordOf s sid th tm d.2.1 g.pc) := by
    unfold State.raise
    simp only [c3, hrec, h2, hfz, hdet, Bool.false_eq_true, if_false, reduceCtorEq]
  rw [hraise]
  have hsq : (Machine.seen s gid g th).q = th.q ∧ (Machine.seen s gid g th).v = th.v
      ∧ (Machine.seen s gid g th).preds = th.preds := by
    unfold Machine.seen; split <;> exact ⟨rfl, rfl, rfl⟩
  refine ⟨⟨?_, ⟨{ th2 with pc := d.2.2, b0 := none, b1 := none, cond := .halted h }, ?_, rfl, rfl, rfl, rfl, ?_, ?_, ?_, ?_, ?_⟩⟩,
    ?_, ?_, ?_, ?_, ?_, ?_⟩
  · exact c2
  · change tget ((q.updThread sid _).updThread sid _).threads sid = _
    simp [c3]
  · exact c5.trans hsq.1
  · exact c6.trans hsq.2.1
  · exact c7.trans hsq.2.2
  · exact c8.trans (seen_team s gid g th)
  · exact c9.trans hwid
  · change q.mem = s.mem; rw [c1, h4, e1]
  · change q.ops = s.ops; rw [c1, h4, e1]
  · have : s.ctx tm.ctx = b.ctx tm.ctx := by rw [h4, e1]; rfl
    refine (State.postRecord_waiting _ (recordOf s sid th tm d.2.1 g.pc)).trans ?_
    change insertRec { recordOf s sid th tm d.2.1 g.pc with clk := q.clk } (q.ctx tm.ctx).waiting = _
    rw [c13, hclk, this]
    rfl
  · intro k hk
    change tget ((q.updThread sid _).updThread sid _).threads k = _
    rw [State.threads_updThread_other _ _ hk, State.threads_updThread_other _ _ hk, c10 k hk, h4]
    exact e3 k hk
  · intro k hk
    change tget q.groups k = _
    rw [c11 k hk, h4, e1]
  · intro k; exact (c14 k).trans (hu k)

/-- The end of a word of a thread alone that faults. -/
theorem fault_spec {f : Form} {s : State} {gid : Nat} {g : Group} {sid : Nat} {th : Thread} {tm : Team}
    (h : Alone s gid g sid th tm) (hf : tm.frozen = false) {e : FaultInfo} (hn : e.cls ≠ .note)
    (hx : e.cls ≠ .kill) :
    Faulted s { (((f.settle gid g { PartIssue.none'.acc (s.asSeen gid g) s with
      faults := [(sid, e, g.runPc)], left := true }).charge [th.team]).raise sid e g.pc g.runPc) with stalled := false }
      gid g sid th tm e := by
  have e1 := State.asSeen_eq s gid g
  have e2 := State.asSeen_thread (gid := gid) h.only h.thread
  have e3 : ∀ i, i ≠ sid → tget (s.asSeen gid g).threads i = tget s.threads i := fun _ hi => State.asSeen_other h.only hi
  have hdg : tget (s.asSeen gid g).groups gid = some g := by rw [e1]; exact h.group
  obtain ⟨c1, c2, ⟨th2, c3, c4, c5, c6, c7, c8, c9⟩, c10, c11, c12, c13, c14, c15⟩ :=
    haltEnd_spec (f := f) (b := s) (tid := th.team) (fs := [(sid, e, g.runPc)]) (w := true) h.only hdg e2
  generalize (f.settle gid g { PartIssue.none'.acc (s.asSeen gid g) s with faults := [(sid, e, g.runPc)], left := true }).charge
    [th.team] = q at c1 c2 c3 c10 c11 c12 c13 c14 c15
  rw [seen_cond, h.inGroup] at c4
  rw [seen_team] at c8
  have hteam : tget q.teams th2.team = some { tm with issued := tm.issued + 1 } := by
    rw [c12, e1, c8]; simp [h.team]
  have hcard : q.cards = s.cards := by rw [c1, e1]
  have hclk : q.clk = s.clk := by rw [c1, e1]
  have hsq : (Machine.seen s gid g th).q = th.q ∧ (Machine.seen s gid g th).v = th.v
      ∧ (Machine.seen s gid g th).preds = th.preds ∧ (Machine.seen s gid g th).wid = th.wid := by
    unfold Machine.seen; split <;> exact ⟨rfl, rfl, rfl, rfl⟩
  obtain ⟨⟨th3, d1, d2, d3, d4, d5, d6, d7, d8, d9, d10⟩, d11, d12, d13, d14, d15, d16⟩ :=
    raise_spec (e := e) (pc := g.pc) (saved := g.runPc) c2 c3 c4 hteam hf hn hx
  refine ⟨⟨d11, th3, d1, d2, d3, d4, d5, ?_, ?_, ?_, ?_, ?_⟩, ?_, ?_, ?_, ?_, ?_⟩
  · rw [d6, c5, hsq.1]
  · rw [d7, c6, hsq.2.1]
  · rw [d8, c7, hsq.2.2.1]
  · rw [d9, c8]
  · rw [d10, c9, hsq.2.2.2]
  · rw [show ∀ x : State, ({ x with stalled := false } : State).mem = x.mem from fun _ => rfl, d12, c1, e1]
  · rw [show ∀ x : State, ({ x with stalled := false } : State).ops = x.ops from fun _ => rfl, d13, c1, e1]
  · have hc : ∀ x : State, ({ x with stalled := false } : State).ctx tm.ctx = x.ctx tm.ctx := fun _ => rfl
    rw [hc]
    refine d14.trans ?_
    rw [c13, e1]
    simp only [recordOf, hclk, State.cardId, hcard, c9, hsq.2.2.2]
    rfl
  · intro hz
    have := d15 hz
    rwa [c8] at this
  · intro k hk1 hk2
    change tget (q.raise sid e g.pc g.runPc).threads k = _
    rw [d16 k hk1, c10 k hk1, e3 k hk1]
    intro p hp hpk
    rw [c8]
    rcases c15 p hp with h | h
    · exact absurd (hpk.symm.trans h) hk1
    · refine hk2 p ?_ hpk
      unfold State.asSeen at h
      split at h
      · exact h
      · simp only [‹Alone s gid g sid th tm›.only, State.dropLatches, List.foldl_cons, List.foldl_nil] at h
        rcases mem_tupd h with h | h
        · exact absurd (hpk.symm.trans h) hk1
        · exact h

/-- Words whose lane answers with a fault take it. -/
theorem faults_of {i : Instr} {f : Form} {act : Lane → State → LaneOut} {eff : Turn → Option FaultInfo}
    (hx : ∀ s, exec i s = f.run act s)
    (ha : ∀ (u : Turn) (l : Lane) (e : FaultInfo), l.Of f u → eff u = some e → act l u.s = .fault e) : Faults i f eff := by
  intro s gid g sid th tm h hf e he hn hk
  have := Form.run_alone (act := act) h
  rw [show s.asSeen gid g = (turnOf f s gid g sid th tm).s from rfl, ha _ _ e (laneOf_of h) he] at this
  exact ⟨_, (hx s).trans this, fault_spec h.toAlone hf hn hk⟩

end Sys2Proof.Machine
end

