-- ==== Sys2Proof/Laws/Stores.lean ====
section
/-! SUPPORT. What a write to memory changes beside memory. -/

namespace Sys2Proof.Machine

/-- Nothing need change. -/
theorem Stored.refl (s : State) : Stored s s :=
  ⟨rfl, fun _ => rfl, fun _ => rfl, fun _ _ => ⟨_, rfl⟩, fun k => by
    cases h : tget s.threads k with
    | none => exact ⟨none, rfl⟩
    | some th => exact ⟨th.watch, rfl⟩⟩

/-- One write after another. -/
theorem Stored.trans {a b c : State} (h : Stored a b) (k : Stored b c) : Stored a c where
  rest := by rw [k.rest, h.rest]
  clusters i := by rw [k.clusters, h.clusters]
  ctxs i := by rw [k.ctxs, h.ctxs]
  chains i j := by
    obtain ⟨l, h1⟩ := h.chains i j
    obtain ⟨m, h2⟩ := k.chains i j
    exact ⟨m, by rw [h2, h1]⟩
  threads i := by
    obtain ⟨w, h1⟩ := h.threads i
    obtain ⟨x, h2⟩ := k.threads i
    exact ⟨x, by rw [h2, h1, Option.map_map]; rfl⟩

/-- A segment wakes. -/
theorem State.wakeSeg_stored (s : State) (c g : Nat) : Stored s (s.wakeSeg c g) := by
  unfold State.wakeSeg
  refine ⟨?_, fun k => ?_, fun k => ?_, fun k c => ?_, fun k => ?_⟩
  · dsimp only; split <;> rfl
  · dsimp only; split <;> simp only [State.cluster_updCluster] <;> split
    · next h => subst h; rfl
    · rfl
    · next h => subst h; rw [if_pos trivial]; rfl
    · rfl
  · dsimp only; split <;> rfl
  · exact ⟨(s.chain k c).line, by dsimp only; split <;> rfl⟩
  · obtain ⟨w, h⟩ := (Stored.refl s).threads k
    refine ⟨w, ?_⟩
    dsimp only; split <;> exact h

/-- Segments wake. -/
theorem State.wakeRange_stored (s : State) (p n : Nat) : Stored s (s.wakeRange p n) := by
  unfold State.wakeRange
  generalize segsOf p n = l
  induction l generalizing s with
  | nil => exact .refl s
  | cons a l ih => exact (s.wakeSeg_stored a.1 a.2).trans (ih _)

/-- Watches are hit, and waiting engines wake. -/
theorem State.noteWrite_stored (s : State) (p n : Nat) : Stored s (s.noteWrite p n) where
  rest := rfl
  clusters _ := rfl
  ctxs k := by
    unfold State.noteWrite State.ctx
    simp only [tgetD, tget_tmap]
    cases tget s.ctxs k <;> rfl
  chains k c := by
    unfold State.noteWrite State.chain State.ctx
    simp only [tgetD, tget_tmap]
    cases tget s.ctxs k with
    | none => exact ⟨_, rfl⟩
    | some x =>
      simp only [Option.map_some, Option.getD_some, CtxSt.note, CtxSt.updSaved, tget_tmap]
      split
      · cases tget x.chains c <;> exact ⟨_, rfl⟩
      · cases tget x.binners (c - 64) <;> exact ⟨_, rfl⟩
  threads k := by
    unfold State.noteWrite
    simp only [tget_tmap]
    cases tget s.threads k with
    | none => exact ⟨none, rfl⟩
    | some th =>
      refine ⟨(th.note p n).watch, ?_⟩
      simp only [Option.map_some, Option.some.injEq]
      unfold Thread.note; split
      · split <;> rfl
      · rfl

/-- Whatever memory and the errors in it become. -/
theorem Stored.withMem {s t : State} (h : Stored s t) (m : List Host.Cell) (f : Tbl Nat) :
    Stored s { t with mem := m, flaws := f } where
  rest := by rw [h.rest]
  clusters k := h.clusters k
  ctxs k := h.ctxs k
  chains k c := h.chains k c
  threads k := h.threads k

/-- What a store changes. -/
theorem State.store_stored (s : State) (p : Nat) (bs : List Byte) : Stored s (s.store p bs) := by
  unfold State.store
  split
  · exact ⟨rfl, fun _ => rfl, fun _ => rfl, fun _ _ => ⟨_, rfl⟩, (Stored.refl s).threads⟩
  · exact ((s.wakeRange_stored p bs.length).withMem _ _).trans (State.noteWrite_stored _ p _)

/-- What a write by a unit of the die that gets no completion changes. -/
theorem State.writeTimesOut_stored (s : State) (ctx : Nat) (va : Word) (p n : Nat) :
    Stored s (s.writeTimesOut ctx va p n) :=
  ⟨rfl, fun _ => rfl, fun _ => rfl, fun _ _ => ⟨_, rfl⟩, (Stored.refl s).threads⟩

/-- What a write by a unit of the die changes. -/
theorem State.agentWrite_stored {s t : State} {ctx : Nat} {va : Word} {eng : Bool} {bs : List Byte}
    (h : s.agentWrite ctx va eng bs = some t) : Stored s t := by
  unfold State.agentWrite at h
  dsimp only at h
  split at h
  · rw [← Option.some.inj h]
    generalize pageParts va.toNat (bs.length / 4096 + 2) 0 bs.length = l
    have : ∀ u : State, Stored s u → Stored s (l.foldl (fun s p =>
        match s.agentPlace ctx (va + wd p.1) { read := false, write := true, exec := false, eng := eng } with
        | .ok place _ _ _ =>
          if (s.silent place p.2).isSome then s.writeTimesOut ctx (va + wd p.1) place p.2
          else s.store place ((bs.drop p.1).take p.2)
        | _ => s) u) := by
      clear h
      induction l with
      | nil => exact fun u hu => hu
      | cons a l ih =>
        intro u hu
        rw [List.foldl_cons]
        apply ih
        split
        · split
          · exact hu.trans (u.writeTimesOut_stored _ _ _ _)
          · exact hu.trans (u.store_stored _ _)
        · exact hu
    exact this s (.refl s)
  · cases h
end Sys2Proof.Machine
end

