-- ==== Sys2Proof/Laws/Turn.lean ====
section
/-! SUPPORT. What the end of a core's turn, and a write that gets no completion, change. -/

namespace Sys2Proof.Machine

/-- Where no team has met an uncorrectable word of the tables, none is killed for one (R367). -/
theorem State.killLost_none {s : State} (h : ∀ p ∈ s.teams, p.2.lost = none) : s.killLost = s := by
  have : s.teams.filter (fun p => p.2.lost.isSome) = [] :=
    List.filter_eq_nil_iff.mpr fun p hp => by simp [h p hp]
  unfold State.killLost
  rw [this]
  rfl

/-- A clock of a core is counted in that core alone (R360). -/
theorem State.countClock_eq (s : State) (c k : Nat) : s.countClock c k = { s with cores := (s.countClock c k).cores } := rfl

/-- A clock without an issue is counted in that core alone (R360). -/
theorem State.countIdle_eq (ex : Instr → State → Host.Outcome State Fault Refusal) (s : State) (c : Nat) :
    s.countIdle ex c = { s with cores := (s.countIdle ex c).cores } := by
  unfold State.countIdle
  dsimp only
  split <;> rfl

/-- A write by a die unit that the host does not complete changes errors and the agenda only (R364). -/
theorem State.writeTimesOut_eq (s : State) (ctx : Nat) (va : Word) (p n : Nat) :
    s.writeTimesOut ctx va p n
      = { s with flaws := (s.hear p n).flaws, agenda := .hostTimeout (.unit ctx va) :: s.agenda } := rfl

end Sys2Proof.Machine
end

