-- ==== Sys2Proof/Tests/Slice0.lean ====
section
/-! SUPPORT. Tests: well-formedness, decoding, single steps with results that the spec gives, and for every statement
states that meet its hypotheses. -/

namespace Sys2Proof.Tests

open Sys2Proof.Machine

set_option Elab.async false

/-! ### States to test on -/

/-- A page of 4 KiB at 0x10000, mapped to itself for reads, writes and engines. -/
def dataPage : TlbEntry := { ctx := 0, vpn := 16, log := 12, pte := 0x10581#64 }

/-- The tables of R258 in LP6 at 0x2000, with that page. -/
def tables : List Host.Cell :=
  writeMem (writeMem (writeMem (writeMem [] 0x2000 (leBytes 8 0x3003)) 0x3000 (leBytes 8 0x4003)) 0x4000 (leBytes 8 0x5003))
    0x5080 (leBytes 8 0x10581)

/-- The device booted, with context 0 resident, the data page in its tables and in the TLBs of cluster 0, and four live
segments of the slice that the context owns. -/
def device : State :=
  let s := State.reset
  let s : State := { s with mem := tables, package := { s.package with booted := true } }
  let s := s.updCtx 0 fun c => { c with ptroot := 0x2000, part := 1, priv := true, maxprio := 15 }
  let s := s.updCluster 0 fun c =>
    { c with tlbFetch := [plainPage], tlbMem := [dataPage], tlbMatrix := [dataPage], tlbCopy := [dataPage],
             live := [0, 1, 2, 3], owner := [(0, 0x4000)] }
  s.updCore 0 fun c => { c with bankctx := 0x0080, rotation := [0] }

/-- A thread of context 0 in slot 0 of core 0, alone in group 0 at 0x1000, whose word is at the issue slot; its team has an
allocation of four segments. -/
def lone : State :=
  let s := device
  let th := { Thread.fresh plainHeader 0 0 0x1000 0 with cond := .inGroup 0, vdead := 0 }
  let g : Group :=
    { core := 0, bank := 0, pc := 0x1000, threads := [0], run := [], runPc := 0x1000, window := none, delayUntil := 0,
      yielded := false, mark := 0, wasReady := false, from' := 0, parked := false, prio := 0, part := none }
  let card := { Card.fresh 0 0x10000 (List.replicate 16 0) plainHeader [] 0 with started := true, next := 1, total := 1 }
  { s with threads := [(0, th)], groups := [(0, g)], cards := [(0, card)],
           teams := [(0, Team.fresh 0 0 0 0 plainHeader (Vector.replicate 32 0) 0 0 4)], fresh := 1, issuing := some 0 }

/-- The same with q0, q1 and q2. -/
def with3 (a b c : Word) : State :=
  lone.updThread 0 fun th => { th with q := pushQ (pushQ (pushQ th.q (.known c)) (.known b)) (.known a) }

/-- Group 0 of a state. -/
def grp (s : State) : Group := ((tget s.groups 0).getD ((tget lone.groups 0).getD
  { core := 0, bank := 0, pc := 0, threads := [], run := [], runPc := 0, window := none, delayUntil := 0, yielded := false,
    mark := 0, wasReady := false, from' := 0, parked := false, prio := 0, part := none }))

/-- Thread 0 of a state. -/
def thr (s : State) : Thread := (tget s.threads 0).getD (Thread.fresh plainHeader 0 0 0 0)

/-- Team 0 of a state. -/
def tm0 (s : State) : Team := (tget s.teams 0).getD (Team.fresh 0 0 0 0 plainHeader (Vector.replicate 32 0) 0 0 0)

/-- What `Alone` asks of group 0, thread 0 and team 0. -/
abbrev AloneIn (s : State) : Prop :=
  s.issuing = some 0 ∧ tget s.groups 0 = some (grp s) ∧ (grp s).threads = [0] ∧ (grp s).part = none
    ∧ tget s.threads 0 = some (thr s) ∧ (thr s).cond = .inGroup 0 ∧ tget s.teams (thr s).team = some (tm0 s)

/-- The premises of a word's statement hold of group 0, thread 0 and team 0. -/
abbrev ReadyIn (f : Form) (s : State) : Prop := Ready f s 0 (grp s) 0 (thr s) (tm0 s)

/-- `Ready`, as its checks. -/
theorem ready_iff {f : Form} {s : State} : ReadyIn f s ↔ AloneIn s ∧ (thr s).guard f.guard = true
    ∧ runFault (tm0 s).hdr (grp s).run = none
    ∧ f.check (tm0 s).hdr (seen s 0 (grp s) (thr s)) (s.ctx (tm0 s).ctx).priv (grp s).window.isSome (grp s).run = none
    ∧ s.queueCheck (tm0 s) f.pops f.queuePushes 0 = .ok
    ∧ (sourcesOf f s 0 (grp s) 0 (thr s) (tm0 s)).zipIdx.any (fun p => p.1.isPend && !f.raw.contains p.2) = false where
  mp h := ⟨⟨h.issuing, h.group, h.only, h.whole, h.thread, h.inGroup, h.team⟩, h.on, h.hints, h.legal, h.queues, h.known⟩
  mpr h :=
    let ⟨a, r⟩ := h
    { issuing := a.1, group := a.2.1, only := a.2.2.1, whole := a.2.2.2.1, thread := a.2.2.2.2.1, inGroup := a.2.2.2.2.2.1,
      team := a.2.2.2.2.2.2, on := r.1, hints := r.2.1, legal := r.2.2.1, queues := r.2.2.2.1, known := r.2.2.2.2 }

/-- The turn of the thread alone. -/
def tn (f : Form) (s : State) : Turn := turnOf f s 0 (grp s) 0 (thr s) (tm0 s)

/-- The state of a next outcome. -/
def nextOf (o : Host.Outcome State Fault Refusal) : State :=
  match o with
  | .next t => t
  | _ => State.reset

/-- Register q0 after a word. -/
def q0 (o : Host.Outcome State Fault Refusal) : Val := vget (thr (nextOf o)).q 0 (.known 0)

/-- A register after a word. -/
def reg (o : Host.Outcome State Fault Refusal) (n : Nat) : Val := vget (thr (nextOf o)).v n (.known 0)

/-- The PC of group 0 after a word. -/
def pcOf (o : Host.Outcome State Fault Refusal) : Option Word := (tget (nextOf o).groups 0).map Group.pc

/-- An access passed its checks. -/
def passed (r : State × Access) : Bool :=
  match r.2 with
  | .ok _ => true
  | _ => false

/-! ### Ill-formed words are refused (R36, R38, R39, R42, R43) -/

theorem test_ill_formed_selector : Instr.wellFormed (.iadd 0 0 0x5D 0 0) = false := by decide +kernel
theorem test_ill_formed_destination : Instr.wellFormed (.mov 0 0x03 0 0) = false := by decide +kernel
theorem test_ill_formed_destination_high : Instr.wellFormed (.mov 0 0x38 0 0) = false := by decide +kernel
theorem test_ill_formed_predicate : Instr.wellFormed (.icmp 0 0 0 0 0 0) = false := by decide +kernel
theorem test_ill_formed_condition : Instr.wellFormed (.icmp 0 7 1 0 0 0) = false := by decide +kernel
theorem test_ill_formed_type : Instr.wellFormed (.fex2 0 0 0 1) = false := by decide +kernel
theorem test_ill_formed_same_format : Instr.wellFormed (.cvt 0 0 0 3 3) = false := by decide +kernel
theorem test_ill_formed_wid_field : Instr.wellFormed (.wid 0 0 6) = false := by decide +kernel
theorem test_ill_formed_cvta_space : Instr.wellFormed (.cvta 0 0 0 3) = false := by decide +kernel
theorem test_ill_formed_lds_size : Instr.wellFormed (.lds 0 0 0 0 3 0) = false := by decide +kernel
theorem test_ill_formed_ldq_pair : Instr.wellFormed (.ldq 0 0x2F 0 0 0) = false := by decide +kernel
theorem test_ill_formed_stq_pair : Instr.wellFormed (.stq 0 0 0 0 0) = false := by decide +kernel
theorem test_ill_formed_point : Instr.wellFormed (.arrive 0 24) = false := by decide +kernel
theorem test_ill_formed_convergence : Instr.wellFormed (.msign 0 16) = false := by decide +kernel
theorem test_ill_formed_register : Instr.wellFormed (.sysr 0 0 0x14) = false := by decide +kernel
theorem test_ill_formed_hint : Instr.wellFormed (.hmod 0 0 0 0 0 6 0 0) = false := by decide +kernel
theorem test_ill_formed_scope : Instr.wellFormed (.fence 0 4) = false := by decide +kernel
theorem test_well_formed_word : Instr.wellFormed (.iadd 7 0x37 0x5C 0x57 3) = true := by decide +kernel

/-! ### Words written out from the encodings (R35, R36, R45, R351): the fields from the top bit down -/

theorem test_decode_isub : decodeWord 0b0000010_001_010010_0010011_0010100_10#32 = some (.isub 1 0x12 0x13 0x14 2) := by decide +kernel
theorem test_decode_icmp : decodeWord 0b0010111_000_011_101_0010000_0000001_01#32 = some (.icmp 0 3 5 0x10 1 1) := by decide +kernel
theorem test_decode_plop : decodeWord 0b0011111_000_001_010_011_0110_000000000#32 = some (.plop 0 1 2 3 6) := by decide +kernel
theorem test_decode_ffma : decodeWord 0b0100011_000_0010001_0010010_0010011_1#32 = some (.ffma 0 0x11 0x12 0x13 1) := by decide +kernel
theorem test_decode_cvt : decodeWord 0b0110001_000_000000_0010000_100_010_000#32 = some (.cvt 0 0 0x10 4 2) := by decide +kernel
theorem test_decode_movi : decodeWord 0b0011010_000_010001_0000000_111111111#32 = some (.movi 0 0x11 0x1FF) := by decide +kernel
theorem test_decode_bra : decodeWord 0b0111000_010_1111111111111111111111#32 = some (.bra 2 0x3FFFFF) := by decide +kernel
theorem test_decode_trap : decodeWord 0b0111101_000_000000_0010001_0_10000001#32 = some (.trap 0 0x11 0x81) := by decide +kernel
theorem test_decode_stq : decodeWord 0b1010100_000_0010100_0010101_1000_11_01#32 = some (.stq 0 0x14 0x15 8 1) := by decide +kernel
theorem test_decode_atom_cas : decodeWord 0b1011100_000_0010001_0010010_0010011_1#32 = some (.atomCas 0 0x11 0x12 0x13 1) := by decide +kernel
theorem test_decode_xst : decodeWord 0b1000100_000_0000000_0010011_11111111#32 = some (.xst 0 0 0x13 0xFF) := by decide +kernel
theorem test_decode_rvinit : decodeWord 0b1100011_000_010111_0110000_000000000#32 = some (.rvinit 0 23 0x30) := by decide +kernel
theorem test_decode_mld : decodeWord 0b1110000_000_000000_0110001_0110010_00#32 = some (.mld 0 0 0x31 0x32) := by decide +kernel
theorem test_decode_himm : decodeWord 0b1111111_000_1000000000000000000001#32 = some (.himm 0x200001) := by decide +kernel
theorem test_decode_hdrop_x : decodeWord 0b1111111_101_0000000001_0000000010_00#32 = some (.hdropX 1 2) := by decide +kernel
theorem test_decode_cx_bfx : decodeControl 0b0000000_01100_01011_001_01010_0001011#32 = some (.cxBfx 12 11 10) := by decide +kernel
theorem test_decode_unassigned : decodeWord 0b0110110_000_0000000000000000000000#32 = none := by decide +kernel
theorem test_decode_extension_funct7 : decodeControl 0b0000001_01100_01011_001_01010_0001011#32 = none := by decide +kernel

/-! ### States in which the words' statements say something -/

theorem witness_integer : NoQueue (Claim.formR 0 0 0 1 (Claim.intMods 2 true))
    ∧ ReadyIn (Claim.formR 0 0 0 1 (Claim.intMods 2 true)) (with3 5 7 0)
    ∧ ReadyIn (Claim.formU 0 0x2F 0 0x80000) (with3 5 7 0)
    ∧ ReadyIn (Claim.formR3 0 0 1 2 0xBF000) (with3 5 7 9) := by
  simp only [ready_iff, NoQueue]; decide +kernel

theorem witness_logic : ReadyIn (Claim.formR 0 2 0x5A 0x5C 0) (with3 5 7 0)
    ∧ ReadyIn (Claim.formU 0 1 0 0) (with3 5 7 0) := by
  simp only [ready_iff]; decide +kernel

theorem witness_move_and_field :
    ReadyIn { guard := 0, dst := some 0x10, illegal := !((10 : BitVec 7).toNat ≤ 5 || (10 : BitVec 7) == 8 || (10 : BitVec 7) == 9 || (10 : BitVec 7) == 10) } (with3 5 7 0)
    ∧ ReadyIn { Claim.formU 0 0 0 0 with illegal := (6 : BitVec 7).toNat == 3 || 6 < (6 : BitVec 7).toNat } (with3 5 7 0)
    ∧ ReadyIn { guard := 0, dst := some 0 } (with3 5 7 0) := by
  simp only [ready_iff]; decide +kernel

theorem witness_predicates :
    ReadyIn { guard := 0, srcs := [(0, 0), (1, 1)], illegal := (6 : BitVec 3) == 7 || (7 : BitVec 3) == 0, mods := Claim.intMods 3 false } (with3 5 7 0)
    ∧ ReadyIn { guard := 0, srcs := [(0, 0), (1, 1)], illegal := (1 : BitVec 3) == 0, mods := 0x5B000 } (with3 5 7 0)
    ∧ ReadyIn { guard := 0, illegal := (1 : BitVec 3) == 0 } (with3 5 7 0)
    ∧ ReadyIn { guard := 0, srcs := [(0, 0), (1, 1)], illegal := 5 ≤ (4 : BitVec 3).toNat || (1 : BitVec 3) == 0, collective := true } (with3 5 7 0) := by
  simp only [ready_iff]; decide +kernel

theorem witness_floats : ReadyIn (Claim.formR 0 0 0 1 0x3DB000) (with3 0x3F800000 0x7F800000 0)
    ∧ ReadyIn (Claim.formR3 0 0 1 2 0x3FF000) (with3 1 2 3)
    ∧ ReadyIn { Claim.formU 0 0 0 0xC9000 with illegal := (3 : BitVec 2) == 1 } (with3 1 2 3) := by
  simp only [ready_iff]; decide +kernel

theorem witness_conversions :
    ReadyIn { Claim.formU 0 0 0 ((if 4 ≤ (5 : BitVec 3).toNat ∨ 4 ≤ (0 : BitVec 3).toNat then 0x3C0000 else 0x80000) + if 4 ≤ (0 : BitVec 3).toNat ∨ (0 : BitVec 3).toNat % 2 = 0 then 0x9000 else 0) with illegal := (5 : BitVec 3) == 0 } (with3 1 2 3)
    ∧ ReadyIn { Claim.formU 0 0 0 0 with illegal := (2 : BitVec 2) == 3, collective := true } (with3 1 2 3)
    ∧ ReadyIn { Claim.formR 0 0 0 1 0 with collective := true } (with3 1 2 3)
    ∧ ReadyIn { guard := 0, dst := some 0, collective := true } (with3 1 2 3) := by
  simp only [ready_iff]; decide +kernel

theorem witness_control : ReadyIn { guard := 0 } lone ∧ ReadyIn (Claim.formC 0 true) lone
    ∧ ReadyIn { Claim.formC 0 true with post := fun h => if h.nreg < 32 then some (illegalOperand 3 0x2F) else none } lone
    ∧ ReadyIn { Claim.formC 0 true with srcs := [(0, 0)], noHimm := false } (with3 (2 ^ 56 - 4) 0 0)
    ∧ (tn { Claim.formC 0 true with srcs := [(0, 0)], noHimm := false } (with3 (2 ^ 56 - 4) 0 0)).src 0 = 2 ^ 56 - 4 := by
  simp only [ready_iff]; decide +kernel

theorem witness_leaving : ReadyIn (Claim.formC 0 true) lone ∧ ReadyIn { guard := 0 } lone
    ∧ (thr lone).owed.isEmpty = true
    ∧ (thr (lone.updThread 0 fun th => { th with owed := [(5, 0)] })).owed.isEmpty = false := by
  simp only [ready_iff]; decide +kernel

theorem witness_traps : NoQueue (Claim.formC 0 false) ∧ ReadyIn (Claim.formC 0 false) lone
    ∧ ReadyIn { Claim.formC 0 false with srcs := [(0, 0)] } lone ∧ (tm0 lone).frozen = false := by
  simp only [ready_iff, NoQueue]; decide +kernel

/-- x-file word 15 is live and holds 77. -/
def xlive : State :=
  (with3 15 0 0).updThread 0 fun th => { th with x := th.x.set 15 { val := .known 77, dead := false } }

theorem witness_x_file : ReadyIn { guard := 0, srcs := [(0, 0)], dst := some 0 } xlive
    ∧ (tn { guard := 0, srcs := [(0, 0)], dst := some 0 } xlive).th.x[15]? = some { val := .known 77, dead := false }
    ∧ ReadyIn { guard := 0, srcs := [(0, 0), (1, 0)], raw := [0] } xlive ∧ 15 < (tm0 xlive).hdr.xsize := by
  simp only [ready_iff]; decide +kernel

theorem witness_queues : ReadyIn { guard := 0, srcs := [(0, 0), (1, 1)] } (with3 (4 * 4096 - 16) 0x17 0)
    ∧ ((0x17 : Nat) < 2 ^ 9 ∧ (0x17 : Nat) / 8 % 2 = 0 ∧ (tm0 lone).hdr.qmask.getLsbD 7 = true ∧ (4 * 4096 - 16) % 8 = 0
        ∧ (4 * 4096 - 16) + 8 * 2 ^ ((0x17 : Nat) / 16 % 16) ≤ (tm0 lone).allocSegs * 4096)
    ∧ ReadyIn { guard := 0, dst := some 0, pre := fun h => if h.qmask.getLsbD 7 then none else some (illegalOperand 0 (0x50 + 7)) } lone
    ∧ ReadyIn { guard := 0, srcs := [(0, 0), (1, 1)] } (with3 0x3000 0x1000 0)
    ∧ (with3 0x3000 0x1000 0).touches 0 (sliceLoc 0 0x3000) 0x1000 = false := by
  simp only [ready_iff]; decide +kernel

theorem witness_loads : ReadyIn { guard := 0, srcs := [(0, 0)], dst := some 0, mods := Claim.memMods 1, illegal := true && (2 : BitVec 2) == 3 }
      (with3 0x10FFC 0 0)
    ∧ passed ((tn { guard := 0, srcs := [(0, 0)], dst := some 0 } (with3 0x10FFC 0 0)).s.access .mem false 0
        (Claim.ea (tn { guard := 0, srcs := [(0, 0)], dst := some 0 } (with3 0x10FFC 0 0)) 0 0 4) 4 .load true) = true
    ∧ ReadyIn { guard := 0, srcs := [(0, 0)], dst := some 0x2E, pushes := 2, post := ldqPair 0x2E } (with3 0x10FF0 0 0)
    ∧ passed ((with3 0x10FF0 0 0).access .mem false 0 0x10FF0 16 .load false) = true
    ∧ ReadyIn { guard := 0, srcs := [(0, 0)], mods := 0x180 } (with3 0x10FF0 0 0) := by
  simp only [ready_iff]; decide +kernel

/-- All parts of an access that passed lie in this device. -/
def passedHere (r : State × Access) : Bool :=
  match r.2 with
  | .ok ps => !ps.any fun p => p.path == .remote
  | _ => false

theorem witness_stores : ReadyIn { guard := 0, srcs := [(0, 1), (1, 0)], mods := Claim.memMods 0 } (with3 0x10000 9 0)
    ∧ passedHere ((with3 0x10000 9 0).access .mem false 0 0x10000 8 .store false) = true
    ∧ ReadyIn { guard := 0, srcs := [(0, 0x10), (0, 0x11), (1, 0)], mods := Claim.memMods 1, pre := stqPair 0x10 } (with3 0x10000 9 0)
    ∧ passedHere ((with3 0x10000 9 0).access .mem false 0 0x10000 16 .store true) = true := by
  simp only [ready_iff]; decide +kernel

theorem witness_atomics :
    ReadyIn { guard := 0, srcs := [(0, 0), (1, 1)], dst := some 2, mods := 0xF80 } (with3 0x10008 9 0)
    ∧ passedHere ((with3 0x10008 9 0).access .mem false 0 0x10008 8 .atomic true) = true
    ∧ ReadyIn { guard := 0, srcs := [(0, 0), (1, 1), (2, 2)], dst := some 0, mods := 0xF80 } (with3 0x10008 9 0)
    ∧ passed ((with3 0x10008 9 0).access .mem false 0 0x10008 4 .atomic true) = true := by
  simp only [ready_iff]; decide +kernel

/-- A team bound to engine context 3 of context 0 as tl2. -/
def bound : State := lone.updTeam 0 fun t => { t with hdr := { t.hdr with ectx := t.hdr.ectx.set 0 3 } }

theorem witness_ordering : ReadyIn { guard := 0, illegal := 3 < (3 : BitVec 7).toNat, mods := 0xE00 } lone
    ∧ lone.fenceWaits 0 3 = false ∧ lone.drainWaits 0 0 3 = false ∧ lone.opsOf 0 = []
    ∧ ReadyIn { guard := 0, srcs := [(0, 0), (1, 1)] } (with3 0x10000 4096 0)
    ∧ passed ((with3 0x10000 4096 0).access .mem false 0 0x10000 4096 .load false) = true
    ∧ ReadyIn { guard := 0, srcs := [(0, 2)], dst := some 0, windowBan := true } lone ∧ (thr lone).watch = none
    ∧ (thr (lone.updThread 0 fun th => { th with watch := some { ranges := [], hit := true } })).watch.any Watch.hit = true
    ∧ lone.namesEctx 0 0 = true ∧ lone.namesEctx 0 0x1003 = true ∧ (0x1003 : Nat) < 0x2000
    ∧ ReadyIn { guard := 0, srcs := [(0, 0)], windowBan := true, post := tlAbsent 2 } bound
    ∧ (0 : Nat) ≤ (bound.teamTimeline (tm0 bound) 2).toNat := by
  simp only [ready_iff]; and_intros <;> decide +kernel

theorem witness_timeline_read : ReadyIn { guard := 0, dst := some 0, pre := tlAbsent 2 } bound
    ∧ tlBound (tm0 bound).hdr 2 = true ∧ tlBound (tm0 lone).hdr 15 = false ∧ 15 < 16
    ∧ ReadyIn { guard := 0, dst := some 0 } lone ∧ (tm0 lone).frozen = false := by
  simp only [ready_iff]; decide +kernel

/-- Point 23 and register 15 have their sizes. -/
def sized : State :=
  (with3 32 0 0).updTeam 0 fun t =>
    { t with count := 32, rv := vset t.rv 23 { exp := 1, ph := false, cur := 0, nxt := 0 }, cv := vset t.cv 15 { cnt := 1, sig := 0, armed := false, cmd := 0, latch := none } }

theorem witness_rendezvous : ReadyIn { guard := 0, srcs := [(0, 0)], post := indexBelow 24 0 } sized
    ∧ (32 ≠ 0 ∧ 32 ≤ (tm0 sized).count ∧ (sized.point 0 0).cur = 0 ∧ (sized.point 0 0).nxt = 0)
    ∧ ReadyIn { guard := 0, post := indexBelow 24 23, mods := 0xE00 } sized
    ∧ ((sized.point 0 23).exp ≠ 0 ∧ (thr sized).ah.getLsbD 23 = false ∧ sized.fenceWaits 0 3 = false)
    ∧ ReadyIn { guard := 0, post := indexBelow 24 23, mods := 0xE00, windowBan := true } sized
    ∧ ((thr sized).pb.getLsbD 23 = false ∧ sized.fenceWaits 0 2 = false)
    ∧ ReadyIn { guard := 0, post := indexBelow 16 15, mods := 0xE00 } sized
    ∧ ((sized.conv 0 15).cnt ≠ 0 ∧ (sized.conv 0 15).sig ≠ (sized.conv 0 15).cnt)
    ∧ ReadyIn { guard := 0, srcs := [(0, 0)], post := indexBelow 16 15, windowBan := true } sized
    ∧ ((sized.conv 0 15).armed = false ∧ (sized.conv 0 15).latch = none) := by
  simp only [ready_iff]; and_intros <;> decide +kernel

theorem witness_convergence : ReadyIn { guard := 0, srcs := [(0, 0)], post := indexBelow 16 0 } sized
    ∧ (32 ≤ (tm0 sized).count ∧ (sized.conv 0 0).sig = 0 ∧ (sized.conv 0 0).armed = false)
    ∧ (tm0 (with3 33 0 0)).count < 33 ∧ (tm0 lone).frozen = false := by
  simp only [ready_iff]; decide +kernel

theorem witness_tasks : ReadyIn { guard := 0, srcs := [(0, 0), (1, 1)], dst := some 0 } (with3 0x10000 0 0)
    ∧ postTarget 0 0 = some 0 ∧ (lone.ctx 0).window 0x10000 = none ∧ (lone.ctx 0).part.getLsbD 0 = true
    ∧ postTarget 0x208 0 = some 8
    ∧ ReadyIn { guard := 0, dst := some 0, windowBan := true } lone ∧ (lone.takeTask 0 0).isNone = true
    ∧ ((lone.core 0).banksOf 0).all (fun b => (lone.core 0).partSize b == 0) = false
    ∧ ((lone.core 0).banksOf 0).filter (fun b => (vget (lone.core 0).deque b []).length < (lone.core 0).partSize b) = [0]
    ∧ (((lone.updCore 0 fun c => { c with dqsplit := 0 }).core 0).banksOf 0).all
        (fun b => ((lone.updCore 0 fun c => { c with dqsplit := 0 }).core 0).partSize b == 0) = true := by
  simp only [ready_iff]; and_intros <;> decide +kernel

/-- A pool of two continuation records at the data page. -/
def pooled : State :=
  (with3 7 1 0).updCluster 0 fun c => { c with cpbase := [(0, 0x10000)], cpn := [(0, 2)] }

theorem witness_suspend : ReadyIn { guard := 0, srcs := [(0, 0), (1, 1)], illegal := 15 < (0 : BitVec 6).toNat, windowBan := true } pooled
    ∧ ReadyIn { guard := 0, srcs := [(1, 1)], windowBan := true } pooled
    ∧ (popCount 64 1 ≤ 16 ∧ 1 % 2 ^ 32 / 2 ^ (tm0 pooled).hdr.nreg = 0 ∧ tlBound (tm0 pooled).hdr 0 = true ∧ pooled.poolSize 0 0 ≠ 0
      ∧ (thr pooled).maskPends 1 = false ∧ pooled.fenceWaits 0 3 = false)
    ∧ pooled.freeRecord 0 0 = some 0 ∧ (tget pooled.cards 0).isSome = true
    ∧ (pooled.agentWrite 0 (pooled.recordAddr 0 0 0) false (List.replicate 256 1)).isSome = true := by
  simp only [ready_iff]; decide +kernel

theorem witness_descriptors : ReadyIn { guard := 0, srcs := [(0, 0), (1, 1)], dst := some 0, mods := 0x180 } (with3 0x10F40 4095 0)
    ∧ passed ((with3 0x10F40 4095 0).access .mem false 0 0x10F40 192 .load false) = true ∧ lone.ownLoad 0 4095 = false
    ∧ ReadyIn { guard := 0, srcs := [(0, 0)], minVer := 3 } lone
    ∧ ReadyIn { guard := 0, srcs := [(0, 0)], minVer := 3, illegal := (14 : BitVec 4).toNat % 2 == 1 } lone := by
  simp only [ready_iff]; decide +kernel

theorem witness_bruin : ReadyIn { guard := 0, dst := some 0, mods := 0xE00, windowBan := true } lone ∧ (tm0 lone).bruinFull = false
    ∧ ReadyIn { guard := 0, srcs := [(0, 0), (1, 1)], dst := some 0, mods := 0xE00, windowBan := true } (with3 0xFFFF 0 0)
    ∧ ReadyIn { guard := 0, srcs := [(0, 0)], dst := some 0, minVer := 3, windowBan := true } (with3 0x0F0F0000 0 0)
    ∧ mpolyBad 0x0F0F0000 = false
    ∧ ReadyIn { guard := 0, srcs := [(0, 0), (1, 1)], dst := some 0, minVer := 3, mods := 0x40, windowBan := true }
        (with3 0x0F0F0000 255 0)
    ∧ miterBad 0x0F0F0000 = false := by
  simp only [ready_iff]; decide +kernel

/-- A texture of four by four RGBA8 texels at the data page (R314). -/
def texture : List Word :=
  [0x8028, 0x10000, 0, 0x400000004, 0, 0, 0, 0, 0, 4, 16, 0, 0, 0, 0, 0, 0, 0, 0, 0, 0, 0x10000, 0, 0]

/-- An output of 16 by 16 pixels in one strip, rendered in cluster 0, with two render slots and two output slots. -/
def output : List Word := [0x0010001000002200, 0x0000200000000000, 0, 0, 0, 0]

/-- The texture is entry 4095, and the team shades strip 0 of stream 63. -/
def shading : State :=
  let s := (with3 0 4095 0).updCtx 0 fun c => { c with desc := [(4095, .valid { words := texture, addr := 0x10000 })] }
  let s := s.updStream 63 fun t => { t with state := 1, odesc := output }
  s.updTeam 0 fun t => { t with act := some { stream := 63, frame := 0, strip := 0, output := false } }

theorem witness_shading : ReadyIn { guard := 0, srcs := [(0, 0), (1, 1)], dst := some 0 } shading
    ∧ dView texture = 2 ∧ texCheck texture = none
    ∧ passed (shading.texPieces 0 (txBytes texture) (texels texture 0 0) []) = true
    ∧ ReadyIn { guard := 0, srcs := [(0, 0), (1, 1)], dst := some 0x2F, enginePush := true, windowBan := true }
        (with3 0x10040 0x10080 0)
    ∧ ReadyIn { guard := 0, srcs := [(0, 0), (1, 1)], dst := some 0x37, enginePush := true, windowBan := true }
        ((with3 0x10040 0x10080 0).updTeam 0 fun t => { t with w := vset t.w 7 { (t.queue 7) with init := true, logCap := 0 } })
    ∧ passedHere ((with3 0x10040 0x10080 0).access .mem false 0 0x10040 40 .load false) = true
    ∧ ReadyIn { guard := 0, srcs := [(0, 0), (1, 1)] } shading
    ∧ (quadBlock 0).1 < odRW output ∧ (quadBlock 0).2.1 < odRH output
    ∧ (quadBlock 0x0000700000000000).1 < odRW output ∧ (tm0 shading).act.isSome = true := by
  simp only [ready_iff]; and_intros <;> decide +kernel

/-- An access of thread 0 that the data page has translated. -/
def paged : MemOp :=
  { ctx := 0, sid := 0, team := 0, core := 0, bank := 0, pc := 0x1000, wid := 0,
    pieces := [{ place := 0x10000, gva := 0x10000, mapped := true, len := 8, va := 0x10000, kind := .rc, path := .globalLp6,
                 page := some (16, 12) }],
    act := .load [(8, false, 5)], ord := .plain, scope := 0, wnum := none, logged := false, got := [], retry := false,
    stuck := false, clk := 0, awaited := [] }

/-- `tlbi` of all has its turn, with accesses in flight, before or after the entries have been dropped. -/
def tlbiTurn (dropped : Bool) (ops : Tbl MemOp) : State :=
  let s := (with3 0x10000 0xFC02 0).updThread 0 fun th => { th with dropped := dropped }
  { s with ops := ops }

theorem witness_system : ReadyIn { guard := 0, dst := some 0, illegal := 0x13 < (0x13 : BitVec 7).toNat } lone
    ∧ ReadyIn { guard := 0, srcs := [(0, 0)], illegal := 0x13 < (0 : BitVec 7).toNat, priv := true } lone
    ∧ ReadyIn { guard := 0, srcs := [(0, 0), (1, 1)], priv := true } (with3 0x10000 0xFC02 0)
    ∧ Claim.tlbiWord 0xFC02 = true ∧ (thr lone).dropped = false ∧ lone.ops.any (fun p => p.2.translatedBy 2 63 0x10000) = false
    ∧ ReadyIn { guard := 0, srcs := [(0, 0), (1, 1)], priv := true } (tlbiTurn true [])
    ∧ (thr (tlbiTurn true [])).dropped = true ∧ (tlbiTurn true []).ops.any (fun p => p.2.awaited.contains 0) = false
    ∧ ReadyIn { guard := 0, srcs := [(0, 0), (1, 1)], priv := true } (tlbiTurn false [(0, paged)])
    ∧ (tlbiTurn false [(0, paged)]).ops.any (fun p => p.2.translatedBy 2 63 0x10000) = true := by
  simp only [ready_iff]; and_intros <;> decide +kernel

theorem witness_hints : lone.issuing = some 0 ∧ tget lone.groups 0 = some (grp lone) := by decide +kernel

/-- A run with `hmod` in it before a word that takes none, and a run of four `himm` words. -/
def runs (ws : List IWord) : State := lone.updGroup 0 fun g => { g with run := ws, runPc := 0xFF0 }

/-- The trapping form of a lane word, in a group that is not whole. -/
theorem witness_shapes : let s := runs [0xFE400040#32]
    ReadyIn { Claim.formR 0 0 0 1 0x40 with collective := true } s ∧ ReadyIn { Claim.formU 0 0 0 0x40 with collective := true } s
    ∧ ReadyIn { guard := 0, dst := some 0, mods := 0x40, collective := true } s
    ∧ ReadyIn { guard := 0, srcs := [(0, 0), (1, 1)], illegal := 5 ≤ (4 : BitVec 3).toNat || (1 : BitVec 3) == 0, mods := 0x40,
                collective := true } s
    ∧ (tn { guard := 0 } s).mods.trap = true ∧ (tm0 s).frozen = false := by
  simp only [ready_iff]; decide +kernel

theorem witness_checks : AloneIn (runs [0xFE400040#32]) ∧ runFault (tm0 lone).hdr [0xFE400040#32] = none
    ∧ ({ guard := 0 } : Form).check (tm0 lone).hdr (seen lone 0 (grp lone) (thr lone)) true false [0xFE400040#32] = some illegalOpcode
    ∧ illegalOpcode.cls ≠ .note ∧ illegalOpcode.cls ≠ .kill ∧ (runFault (tm0 lone).hdr (List.replicate 4 0xFE000000#32)).isSome = true
    ∧ decodeWord 0x6C000000 = none ∧ (0x6C000000 : Nat) / 2 ^ 25 ≠ 0x7F ∧ (thr lone).guard 0 = true
    ∧ Claim.Issues { guard := 0 } (runs [0xFE400040#32]) 0 (grp (runs [0xFE400040#32])) 0 (thr lone) (tm0 lone) := by
  simp only [Claim.Issues]; decide +kernel

theorem witness_off : AloneIn lone ∧ (thr lone).guard 7 = false ∧ runFault (tm0 lone).hdr (grp lone).run = none := by
  decide +kernel

/-! ### Control cores -/

/-- Control core 3 has its turn, with `a` in x11 and `b` in x12, and queue 255 holds a packet. -/
def ctl (a b : Word) : State :=
  let s := device.updCtl 3 fun c => { c with turn := true, x := vset (vset c.x 11 a) 12 b }
  s.updHostq 255 fun h => { h with fetched := [{ num := 9, words := List.replicate 8 0 }] }

theorem witness_control_cores : (ctl 0 0).ctlTurn = some 3 ∧ Claim.x (ctl 255 0) 3 11 = BitVec.ofNat 64 255
    ∧ ((ctl 0 0).hostq 255).fetched ≠ [] ∧ ((ctl 0 0).hostq 251).fetched = [] ∧ 251 % 4 = 3
    ∧ Claim.x (ctl 0 (63 * 256 + 1)) 3 12 = BitVec.ofNat 64 (63 * 256 + 1) ∧ 1 + 63 ≤ 64
    ∧ (ctl 0 0).namesEctx ((ctl 0 0).hostq ((ctl 0 0).ctlCore 3).fetchQ).ctx 63 = true
    ∧ ((ctl 0 0).updCtl 3 fun c => { c with turn := false }).cardAddrBad 0 0x10000 = none
    ∧ ((ctl 0 0).updCtl 3 fun c => { c with turn := false }).cardAddrBad 0 1 ≠ none := by decide +kernel

/-- A card at 0x10000 of one team of one thread, with its kernel's header at 0x10100 (R50, R187). -/
def carded (s : State) : State :=
  let header : List Word := [0x0000FF0000200003, 64, 0, 0, 0xFFFFFFFF00000000, 0xFFFFFFFFFFFFFFFF, 0xFFFFFFFFFFFFFFFF, 0xFFFFFFFFFFFFFFFF]
  let card : List Word := [5, 0x10100, 0x10200, 0, 0, 0, 0, 0, 0, 0xFFFF, 0, 0, 0, 0, 0, 0]
  { s with mem := writeMem (writeMem s.mem 0x10000 (card.flatMap fun w => leBytes 8 w.toNat)) 0x10100
                    (header.flatMap fun w => leBytes 8 w.toNat) }

/-- An acceptance gave a card. -/
def accepted (r : State × Accepted) : Bool :=
  match r.2 with
  | .ok _ => true
  | _ => false

theorem witness_control_core_cards :
    accepted ((((carded (ctl 0x10000 0)).updCtl 3 fun c => { c with turn := false }).accept 0 0x10000 .launch 0 (fun c => c))) = true := by
  decide +kernel

/-! ### States in which the steps' statements say something -/

theorem witness_idle : let s : State := { (device.updCluster 0 fun c => { c with banks := [(255, (true, 0))] }) with clk := 512 }
    let r := (({ lone with clk := 512 } : State).updCore 0 fun c => { c with power := [(0, (true, 0))] })
    tget (s.cluster 0).banks 255 = some (true, 0) ∧ 0 + 512 ≤ s.clk
    ∧ tget (r.core 0).power ((0 * 32 + 0) * 12 + 0) = some (true, 0) ∧ r.blockLive 0 0 0 0 = true
    ∧ (tget (lone.updGroup 0 fun g => { g with delayUntil := 512 }).groups 0).any (fun g => g.delayUntil != 0 && g.delayUntil ≤ 512) = true := by
  decide +kernel

/-- Two threads in lanes 0 and 31 of core 0, bank 0, filed at 0x2000 in a bin that is full. -/
def binned : State :=
  let th := { Thread.fresh plainHeader 0 0 0x2000 0 with cond := .filed }
  let s : State := { lone with threads := [(0, th), (31 * 64, th)], groups := [], issuing := none, clk := 600 }
  s.updCore 0 fun c => { c with rotation := [], bins := vset c.bins 0 [{ key := 0x2000, full := 2, age := 512, filed := [(0, 10), (31 * 64, 20)] }] }

theorem witness_bins : binned.dueBins 0 = [(0, 0x2000)]
    ∧ ((vget (binned.core 0).bins 0 []).find? (fun x => x.key == 0x2000)).isSome = true := by decide +kernel

/-- The team's budget of 1 is spent. -/
def spent : State := lone.updTeam 0 fun t => { t with issued := 1, hdr := { t.hdr with budget := 1 } }

theorem witness_budget : spent.issuing = some 0 ∧ tget spent.groups 0 = some (grp spent) ∧ spent.firstOf (grp spent) 0 = some 0
    ∧ (tm0 spent).frozen = false ∧ (tm0 spent).hdr.budget ≠ 0 ∧ (tm0 spent).hdr.budget ≤ (tm0 spent).issued := by decide +kernel

/-- The thread waits on its watch until time 0. -/
def waiting : State :=
  let s := lone.updThread 0 fun th => { th with cond := .blocked (.watch 0x2F (some 0) true), watch := some { ranges := [], hit := false } }
  { s with groups := [], issuing := none }

theorem witness_timeout : (thr waiting).cond = .blocked (.watch 0x2F (some 0) true) ∧ 0 ≤ waiting.ns ∧ (thr waiting).watch.any Watch.hit = false
    ∧ (tm0 waiting).canPush 0x2F = true ∧ Machine.dstW 0x2F = none
    ∧ (vget (waiting.core (sidCore 0)).bins (sidBank 0) []).all (fun x => x.filed.all fun y => y.1 != 0) = true := by decide +kernel

theorem witness_flips : let s := lone.updCore 0 fun c => { c with flips := [1], inForce := some 0 }
    let r := lone.updCore 0 fun c => { c with flip := .landing 1 0 }
    (s.core 0).flips = [1] ∧ (s.core 0).flip = .idle ∧ (s.core 0).holder = none ∧ (s.core 0).stop.stopped = false ∧ (s.core 0).inForce ≠ some 1
    ∧ ((s.updCore 0 fun c => { c with flips := [0] }).core 0).inForce = some 0
    ∧ (r.core 0).flip = .landing 1 0 ∧ 0 ≤ r.clk := by decide +kernel

theorem witness_stops : ((lone.updCore 0 fun c => { c with stop := { c.stop with requested := true } }).core 0).stop.requested = true
    ∧ (lone.core 0).holder = none
    ∧ ((lone.updCore 0 fun c => { c with stop := { c.stop with stopped := true } }).core 0).stop.stopped = true := by decide +kernel

/-- Device time of 2 s, disciplined from port 17, with all of an exchange but its end. -/
def timed (t2 : Nat) : State :=
  { device with time := { device.time with en := true, port := 17, now := 2000000000 * 65536, state := 2, last := 1000000000,
                                           t1 := some 0, t2 := some t2, t3 := some t2 } }

theorem witness_time : (timed 0).time.en = true ∧ (timed 0).time.port.toNat < 18 ∧ (31#5).toNat = 31 ∧ (timed 0).time.t2 ≠ none ∧ (timed 0).time.state = 2
    ∧ (timed 0).time.last + 1000000000 ≤ (timed 0).time.now / 65536
    ∧ (sgn 32 (timed 0).time.rateadj.toNat).natAbs ≤ 219902326
    ∧ (Claim.offset 0 100 100 0).natAbs ≤ 1000000 ∧ Claim.offset 0 100 100 0 = 100 := by decide +kernel

theorem witness_time_steps : 1000000 < (Claim.offset 0 1000001 1000001 0).natAbs ∧ (timed 1000001).streaming = false
    ∧ ((timed 1000001).updStream 0 fun t => { t with state := 1 }).streaming = true
    ∧ (nextOf (exec (.delayResp 0 17 0) { timed 1000001 with time := { (timed 1000001).time with state := 0 } })).time.state = 1 := by
  decide +kernel

/-- The arithmetic clocks of cluster 0 stand just after 65,536 by `a` 1700ths at 1,700 MHz, with tracing on. -/
def synced (need : Bool) (at' a : Nat) : State :=
  let s := device.updCluster 0 fun c => { c with fmhz := 1700, lcycAcc := 1700 * 65535 + a, lcycAt := at' }
  let s := s.updCluster 0 fun c => { c with trace := { c.trace with en := true, tlog := 12, tbase := 0x10000, needSync := need } }
  { s with clk := 1 }

theorem witness_sync : let turns := fun s : State => let c := s.cluster 0
      let parts := c.lcycAcc + (s.clk - c.lcycAt) * c.fmhz
      c.lcycAt < s.clk ∧ parts / 1700 / 65536 ≠ (parts - c.fmhz) / 1700 / 65536
    (∀ b ∈ [false, true], (∀ r ∈ ((synced b 0 0).cluster 0).trace.buf, r.1 ≠ 0) ∧ turns (synced b 0 0) ∧ ¬turns (synced b 1 0))
    ∧ turns ((synced true 0 0).updCluster 0 fun c => { c with fmhz := 3400, lcycAcc := 1700 * 65535 }) := by decide +kernel

theorem witness_observation :
    (let s := { timed 0 with series := { device.series with en := true, slog := 0, k := 10 } }
     s.series.en = true ∧ s.series.lastTick < s.time.now / 65536 / 2 ^ s.series.k)
    ∧ (let s := { timed 0 with series := { device.series with en := true, slog := 0, k := 10, swr := 1 } }
       2 ^ s.series.slog ≤ (s.series.swr - s.series.srd).toNat)
    ∧ (let s := { timed 0 with series := { device.series with en := true, slog := 0, k := 10, sbase := 0x10000 } }
       (s.series.swr - s.series.srd).toNat < 2 ^ s.series.slog
       ∧ (s.agentWrite 0 (s.series.sbase + BitVec.ofNat 64 (4096 * (s.series.swr.toNat % 2 ^ s.series.slog))) false
            (List.replicate 4096 0)).isSome = true)
    ∧ ((device.updCtx 0 fun c => { c with capaddr := 0x10000 }).agentWrite 0 0x10000 false
        (((device.updCtx 0 fun c => { c with capaddr := 0x10000 }).captureWords 0).flatMap fun w => leBytes 8 w.toNat)).isSome = true := by
  decide +kernel

/-- The grants are within any limit. -/
theorem witness_power : (timed 0).package.lastGrant + 100000 ≤ (timed 0).time.now / 65536
    ∧ ∀ n : Nat, (([some 0, none] : List (Option Nat)).map fun g => g.getD 0).sum ≤ n :=
  ⟨by decide +kernel, Nat.zero_le⟩

/-- A device in pod 1 with a route to device 2 over port 17. -/
def pod : State :=
  { timed 0 with fabric := { device.fabric with pod := 1, up := [17], peer := [(17, 2)], routes := [(2, 0x862 ||| 0x440)] } }

theorem witness_budgets : 2 ≠ pod.fabric.pod.toNat ∧ (tgetD pod.fabric.routes 2 0).getLsbD 11 = true ∧ pod.portFor 2 ≠ none
    ∧ (let s : State := { pod with package := { pod.package with racklimit := 1 } }
       s.package.racklimit ≠ 0 ∧ s.package.lastBudget + 100000 ≤ s.time.now / 65536)
    ∧ Claim.budget pod 1 2 0 0 0 = [.budget 17 1 2 0 0 0]
    ∧ Claim.budget { pod with fabric := { pod.fabric with up := [3], routes := [(2, 0x8E2)] } } 1 2 0 0 0 = [.budget 3 1 2 0 0 0]
    ∧ Claim.budget { pod with fabric := { pod.fabric with up := [] } } 1 2 0 0 0 = [] := by decide +kernel

/-- An open card of the lone team. -/
def opened : State := lone.updCard 0 fun k => { k with next := 1, total := 1, started := true }

theorem witness_power_kill : opened.powerVictim = some 0 := by decide +kernel

/-- A request of device 2 to an address. -/
def asked (a : Word) : RemoteReq :=
  { src := 2, num := 7, group := 255, addr := a, size := 8, kind := .load, ord := 0, scope := 0, data := [], cmp := [] }

/-- Ingress group 255 is of context 0. -/
def ingressed : State := { pod with fabric := { pod.fabric with ingress := [(255, 0x80)] } }

/-- Where a request's bytes are, if nothing refuses it. -/
def placesOf (r : RemoteReq) : Option (List (Nat × Nat)) :=
  match (ingressed.ingressPlaces 0 r (pageParts r.addr.toNat (r.size / 4096 + 2) 0 r.size)).2 with
  | .ok ps => some ps
  | _ => none

theorem witness_ingress : let s : State := { pod with fabric := { pod.fabric with served := [(2, 7, .data [1, 2])] } }
    (s.fabric.served.find? fun x => x.1 == 2 && x.2.1 == 7) = some (2, 7, .data [1, 2])
    ∧ (ingressed.fabric.served.find? fun x => x.1 == 2 && x.2.1 == 7) = none
    ∧ (tgetD pod.fabric.ingress 255 0).getLsbD 7 = false ∧ (tgetD ingressed.fabric.ingress 255 0).getLsbD 7 = true
    ∧ placesOf (asked 0x20000) = none
    ∧ ∀ k ∈ [RemoteKind.load, .engRead, .store, .engWrite, .engAdd, .atomic 0x55 2, .red 0x55 2],
        placesOf { asked 0x10000 with kind := k } = some [(0x10000, 8)] := by decide +kernel

/-- Request 7 of a master to device 2. -/
def sent (m : Master) : RemoteOut :=
  { num := 7, master := m, dst := 2, req := asked 0x10000, sent := 0, alt := false, waiting := false }

theorem witness_answers :
    (∀ m ∈ [Master.access 0, .ray 0, .raster 0, .chain 0 0],
      let s : State := { pod with fabric := { pod.fabric with out := [sent m] } }
      (s.fabric.out.find? fun r => r.num.toNat == 7 && !r.waiting) = some (sent m) ∧ (sent m).master = m
      ∧ (sent m).sent + 1000 * s.fabric.fto.toNat ≤ s.time.now / 65536)
    ∧ (let s := lone.updTeam 0 fun t => { t with rays := { t.rays with waiting := some 7 } }
       tget s.teams 0 = some (tm0 s) ∧ (tm0 s).rays.waiting = some 7) := by
  decide +kernel

/-- An access of thread 0 of `len` bytes at a location. -/
def access (act : MemAct) (path : Path) (len : Nat) : MemOp :=
  { ctx := 0, sid := 0, team := 0, core := 0, bank := 0, pc := 0x1000, wid := 0,
    pieces := [{ va := 0x10000, len := len, place := 0x10000, gva := 0x10000, mapped := true, kind := .rc, path := path,
                 page := none }],
    act := act, ord := .plain, scope := 0, wnum := none, logged := false, got := [], retry := false, stuck := false, clk := 0,
    awaited := [] }

/-- The lone thread with access 0. -/
def flying (o : MemOp) : State := { lone with ops := [(0, o)] }

theorem witness_host_timeout : let o := access (.load [(8, false, 0)]) .hostWindow 8
    tget (flying o).ops 0 = some o ∧ (o.pieces.find? fun p => p.path == .hostWindow).isSome = true
    ∧ (tget (flying o).teams o.team).any (fun t => !t.finished) = true ∧ (0x7FFFF8 : Nat) < 2 ^ 23 := by decide +kernel

theorem witness_ports : (17 : Nat) < 18 ∧ pod.fabric.up.Nodup := by decide +kernel

theorem witness_boot : State.reset.package.booted = false ∧ State.reset.package.halted = false := by decide +kernel

/-- A servicing command in execution. -/
def serviced (n : Word) : State := { device with package := { device.package with svcBusy := true, svccmd := n } }

theorem witness_servicing : (serviced 1).package.svcBusy = true ∧ (serviced 1).package.svccmd = 1 ∧ (serviced 1).ctl.any (fun p => p.2.cur.isSome) = false
    ∧ ((serviced 1).updCtl 3 fun c => { c with cur := some 255 }).ctl.any (fun p => p.2.cur.isSome) = true ∧ (serviced 2).package.svccmd = 2
    ∧ (serviced 2).package.spares = [24, 25] ∧ (23#64).toNat % 32 < 24 ∧ (serviced 2).spareReady 23 = true
    ∧ ({ serviced 2 with package := { (serviced 2).package with spares := [] } } : State).package.spares = []
    ∧ (serviced 3).package.svccmd = 3 ∧ (serviced 4).package.svccmd = 4
    ∧ ((serviced 4).stopStream 63).stream 63 = (serviced 4).stream 63 ∧ ((serviced 4).stream 63).state = 0 := by decide +kernel

theorem witness_package : (7 : Nat) < 8 ∧ (1 : Nat) < 2 ∧ 2 ^ 42 + 8 + [1#8].length ≤ 2 ^ 42 + 2 ^ 23
    ∧ (let s : State := { pod with package := { pod.package with dpstat := [(1, 9)] } }
       (tgetD s.package.dpstat 1 0).getLsbD 0 = true)
    ∧ (8388608 - 3485) + 3485 ≤ 2 ^ 23 := by decide +kernel

/-- The same device with a card at 0x10000 that is ready on cluster 0. -/
def ready : State := { device with cards := [(0, { Card.fresh 0 0x10000 (List.replicate 16 0) plainHeader [] 0 with next := 0, total := 1, place := .ready 0 })] }

theorem witness_launch : (tget ready.cards 0).isSome = true
    ∧ (ready.teamSlots 0 0 ((tget ready.cards 0).map Card.hdr |>.getD plainHeader)).isSome = true ∧ ready.placeable = true := by
  decide +kernel

/-- The team of `lone`, over. -/
def finished : State :=
  let s := (lone.updTeam 0 fun t => { t with finished := true }).updThread 0 fun th => { th with cond := .ended }
  { s with groups := [], issuing := none }

theorem witness_team_retires : (tget finished.teams 0 = some (tm0 finished)) ∧ (tm0 finished).finished = true ∧ (tm0 finished).gone = false
    ∧ (∀ p ∈ finished.ops, p.2.team ≠ 0) ∧ finished.posts = [] ∧ (tm0 finished).bruin.cmds = [] ∧ (tm0 finished).rays.rays = []
    ∧ (finished.ctx (tm0 finished).ctx).saved = none ∧ (finished.cluster ((tm0 finished).core / 8)).live.Nodup := by
  decide +kernel

/-- Card 0 of a state. -/
def card0 (s : State) : Card := (tget s.cards 0).getD (Card.fresh 0 0 [] plainHeader [] 0)

/-- The card of `finished`, whose team is gone. -/
def retiring : State :=
  (finished.updTeam 0 fun t => { t with gone := true }).updCard 0 fun k => { k with words := [0, 0, 0, 0, 0, 0, 0, 0, 0, 0xFFFF, 0, 0, 0, 0, 0, 0] }

theorem witness_card_retires : tget retiring.cards 0 = some (card0 retiring) ∧ (card0 retiring).next = (card0 retiring).total
    ∧ (card0 retiring).again = [] ∧ (card0 retiring).records = 0 ∧ (∀ p ∈ retiring.teams, p.2.card = 0 → p.2.gone = true)
    ∧ retiring.cardWrites 0 = false ∧ (card0 retiring).phase = 0 ∧ bits (wordAt (card0 retiring).words 6) 31 16 = 0
    ∧ (card0 retiring).journal = none ∧ cardCtl (card0 retiring).words = 0xFFFF := by decide +kernel

/-- Device time 2 s, and a card whose DEADLINE is 1. -/
def late (soft : Word) : State :=
  ({ lone with time := (timed 0).time } : State).updCard 0 fun k => { k with words := [soft, 0, 0, 0, 0, 0, 0, 0, 1, 0xFFFF, 0, 0, 0, 0, 0, 0] }

theorem witness_deadline : ∀ s ∈ [late 0, late 0x200000000], tget s.cards 0 = some (card0 s) ∧ wordAt (card0 s).words 8 ≠ 0
    ∧ (wordAt (card0 s).words 8).toNat ≤ s.time.now / 65536 ∧ s.cardOpen 0 = true ∧ (card0 s).late = false
    ∧ (card0 s).out.deadlineMiss = false ∧ (card0 s).act = none := by decide +kernel

/-- The last word of the allocation's fourth segment has an error. -/
def flawed (n : Nat) : State := { lone with flaws := [(sliceLoc 0 0x3FFF / 8, n)] }

theorem witness_scrubber : lone.segLive 0 (0x3FFF / 4096) = true ∧ tgetD lone.flaws (sliceLoc 0 0x3FFF / 8) 0 = 0
    ∧ tgetD (flawed 1).flaws (sliceLoc 0 (0x3FFF % 2 ^ 25) / 8) 0 = 1 ∧ tgetD (flawed 2).flaws (sliceLoc 0 (0x3FFF % 2 ^ 25) / 8) 0 = 2
    ∧ (∀ s ∈ [lone, flawed 2], s.teamAt 0 (0x3FFF % 2 ^ 25) = some 0 ∧ tget s.teams 0 = some (tm0 s))
    ∧ (tm0 lone).killed = false ∧ lone.posts = [] ∧ ∀ q ∈ lone.ops, q.2.team = 0 → (q.2.logged || q.2.stuck) = true := by decide +kernel

/-- A post in flight to core 0. -/
def posted (s : State) : State := { s with posts := [(0, { ctx := 0, sid := 0, tok := 5, handle := 9, core := 0 })] }

theorem witness_post : (tget (posted lone).posts 0).isSome = true ∧ (((posted lone).core 0).roomy 0).head?.isSome = true
    ∧ (((posted (lone.updCore 0 fun c => { c with dqsplit := 0 })).core 0).roomy 0) = [] := by decide +kernel

/-- The thread of `pooled` has suspended, and its record is in the pool. -/
def suspended : State := nextOf (exec (.suspNow 0 1) pooled)

/-- The record has been taken by a worker of core 0, and waits for a slot. -/
def taken : State := (nextOf (exec (.continuationDelivery 0 0) (nextOf (exec (.continuationDelivery 0 0) suspended)))).updCluster 0 fun c =>
  { c with resume := [{ ctx := 0, core := 0, cluster := 0, index := 0 }] }

theorem witness_delivery : (suspended.ctx 0).away = false
    ∧ (suspended.cards.any fun p => p.2.ctx == 0 && p.2.records != 0) = true ∧ suspended.deliverable 0 0 = some (0, false)
    ∧ (nextOf (exec (.continuationDelivery 0 0) suspended)).deliverable 0 0 = some (0, true)
    ∧ ((nextOf (exec (.continuationDelivery 0 0) suspended)).emptiest 0 0).isSome = true := by decide +kernel

/-- The place that a translation gives. -/
def placeOf (r : Tr) : Option Nat := match r with | .ok p _ _ _ => some p | _ => none

theorem witness_resume : taken.resumable' 0 = some { ctx := 0, core := 0, cluster := 0, index := 0 }
    ∧ (let u := taken.updCluster 0 fun c => { c with resume := [] }
       let ws := u.readRecord 0 0 0
       recordState ws = 3 ∧ u.recordCard 0 ws = some 0 ∧ (tget u.cards 0).isSome = true
       ∧ u.resumeSlot 0 0 (bits (wordAt ws 0) 51 47) (footprint (card0 u).hdr) ≠ none
       ∧ (∀ x ∈ vget (u.core 0).bins 0 [], x.filed = [])
       ∧ (u.recordAddr 0 0 0).toNat % 256 = 0
       ∧ (let t := nextOf (exec (.continuationResume 0) taken)
          ∃ p ∈ placeOf (u.agentPlace 0 (u.recordAddr 0 0 0) { read := false, write := true, exec := false, eng := false }),
            p + 256 ≤ 2 ^ 40 ∧ placeOf (t.agentPlace 0 (u.recordAddr 0 0 0) { read := true, write := false, exec := false, eng := false })
              = some p ∧ ∀ q ∈ t.ops, q.2.woke = false)) := by decide +kernel

/-- A record that waits to be written. -/
def note (fatal : Bool) : TrapRec :=
  { card := 5, extra := 0, ctx := 0, cluster := 0, core := 0, bank := 0, exited := true, replay := false, fatal := fatal, wid := 0,
    code := 1, pc := 0x1000, addr := 0, owner := none, engine := none, clk := 0 }

/-- Context 0 with `n` records in its queue and two that wait. -/
def noted (n : BitVec 32) : State :=
  device.updCtx 0 fun c => { c with tqbase := 0x10000, tqtail := n, waiting := [note false, note true] }

theorem witness_records : ((noted 254).ctx 0).tqStuck = false ∧ ((noted 254).ctx 0).waiting.head? = some (note false)
    ∧ ((noted 255).ctx 0).waiting.find? (fun r => r.fatal) = some (note true) ∧ ((noted 256).ctx 0).frozen = false
    ∧ (((noted 256).ctx 0).waiting.any fun r => r.fatal) = true
    ∧ ((((noted 255).updCtx 0 fun c => { c with waiting := [note false] }).ctx 0).waiting.any fun r => r.fatal) = false
    ∧ (((noted 256).updCtx 0 fun c => { c with frozen := true }).ctx 0).frozen = true
    ∧ (((noted 255).updCtx 0 fun c => { c with tqStuck := true }).ctx 0).tqStuck = true := by
  decide +kernel

theorem witness_record_slot : (noted 254).agentSilent 0 (0x10000 + 32 * 254) 32 = false := by decide +kernel

/-- The thread is halted. -/
def halted (h : Halt) : State :=
  let s := lone.updThread 0 fun th => { th with cond := .halted h }
  { s with groups := [], issuing := none }

theorem witness_halted : ((halted .page).ctx 0).saved = none ∧ (thr (halted .page)).cond = .halted .page
    ∧ ((halted .page).ctx 0).holds 0 = false ∧ (halted .page).resumable 0 0 0 0 = false
    ∧ (halted .softTrap).resumable 0 ((halted .softTrap).cardId (tm0 (halted .softTrap))) 0 0 = true
    ∧ (halted .breakpoint).resumable 0 ((halted .breakpoint).cardId (tm0 (halted .breakpoint))) 0 0 = true
    ∧ ∀ x ∈ vget ((halted .page).core 0).bins 0 [], x.filed = [] := by decide +kernel

/-- Every entry of a table is the one that its number reads, as a check. -/
theorem witness_listed : Claim.Listed lone.teams ∧ Claim.Listed lone.threads := by
  simp only [Claim.Listed]; decide +kernel

theorem witness_kill : lone.openCards 0 (lone.cardId (tm0 lone)) = [0] ∧ lone.openCards 0 0xFFFFFFFF = []
    ∧ (tget lone.cards 0).isSome = true ∧ tget lone.teams 0 = some (tm0 lone) ∧ (tm0 lone).card = 0 ∧ (tm0 lone).gone = false
    ∧ (tm0 lone).origin = 0 ∧ (∀ p ∈ lone.teams, p.2.origin ≠ 5) ∧ lone.hasRecords 0 5 = false := by decide +kernel

theorem witness_apertures : lone.granuleHeld 0 0 = true ∧ lone.granuleHeld 23 511 = false ∧ ((lone.stream 63).state = 0)
    ∧ (shading.stream 63).state ≠ 0
    ∧ (let s := lone.updThread 0 fun th => { th with watch := some { ranges := [(2 ^ 44 + 0x40, 2 ^ 44 + 0x80)], hit := false } }
       (thr s).watch.any (fun w => w.ranges.any fun r => decide (2 ^ 44 + 0x48 < r.2) && decide (r.1 < 2 ^ 44 + 0x48 + 8)) = true) := by
  decide +kernel

/-! ### Accesses and the Bruin engine -/

/-- Access 0 of a state may be performed, as its checks. -/
theorem due_iff {s : State} {o : MemOp} {p : Piece} : Claim.Due s 0 o p (thr s) ↔ tget s.ops 0 = some o ∧ o.pieces = [p]
    ∧ p.path ≠ .remote ∧ p.place + p.len ≤ 2 ^ 40 ∧ p.mapped = true
    ∧ (∀ f ∈ s.flaws, 8 * f.1 + 8 ≤ p.place ∨ p.place + p.len ≤ 8 * f.1) ∧ s.inOrder 0 o = true ∧ o.stuck = false ∧ o.logged = false
    ∧ (s.ctx o.ctx).saved = none ∧ tget s.threads o.sid = some (thr s) ∧ (thr s).cond ≠ .ended where
  mp h := ⟨h.op, h.pieces, h.path, h.place, h.mapped, h.sound, h.order, h.stuck, h.logged, h.here, h.thread, h.alive⟩
  mpr := fun ⟨op, pieces, path, place, mapped, sound, order, stuck, logged, here, thread, alive⟩ =>
    { op, pieces, path, place, mapped, sound, order, stuck, logged, here, thread, alive }

/-- The part of `access`. -/
def part (len : Nat) : Piece :=
  { va := 0x10000, len := len, place := 0x10000, gva := 0x10000, mapped := true, kind := .rc, path := .globalLp6, page := none }

theorem witness_load : Claim.Due (flying (access (.load [(8, false, 5)]) .globalLp6 8)) 0 (access (.load [(8, false, 5)]) .globalLp6 8) (part 8)
    (thr (flying (access (.load [(8, false, 5)]) .globalLp6 8))) := by
  simp only [due_iff]; decide +kernel

/-- A store of four bytes, the write of number 3. -/
def storing : MemOp := { access (.store [1, 2, 3, 4]) .globalLp6 4 with wnum := some 3 }

theorem witness_store : Claim.Due (flying storing) 0 storing (part 4) (thr (flying storing)) := by
  simp only [due_iff]; decide +kernel

/-- An atomic add of one to 32 bits. -/
def adding : MemOp := access (.atomic 0x55 0 1 0 (some 5)) .globalLp6 4

theorem witness_atomic : Claim.Due (flying adding) 0 adding (part 4) (thr (flying adding)) := by
  simp only [due_iff]; decide +kernel

theorem witness_queues_hold_no_token : Claim.unqueued lone (thr lone) 5 := by
  intro tm h n hn
  have e : tm = tm0 lone := Option.some.inj (h.symm.trans (by decide +kernel))
  rw [e]
  revert n
  decide +kernel

/-- A descriptor load of entry 4095. -/
def describing : State := (flying (access (.descriptor 4095 5) .globalLp6 192)).updCtx 0 fun c => { c with desc := [(4095, .loading 0)] }

theorem witness_descriptor_load : Claim.Due describing 0 (access (.descriptor 4095 5) .globalLp6 192) (part 192) (thr describing)
    ∧ tget (describing.ctx 0).desc 4095 = some (.loading 0) := by
  simp only [due_iff]; decide +kernel

/-- A Bruin command without captures. -/
def bcmd (c : BCmd) (x : List Word) : BEntry :=
  { cmd := c, sid := 0, snaps := [(0, .valid { words := x, addr := 0 }), (1, .valid { words := x, addr := 0 })], cf := [], wnum := none, tok := none }

/-- The team's queue holds one command, with how far it has come. -/
def queued (e : BEntry) (p : Option BProg) : State :=
  lone.updTeam 0 fun t => { t with bruin := { t.bruin with cmds := [e], accepted := 1, prog := p } }

/-- `mma` of 32 in k, tile 15. -/
def product : Word := 0x7800000000000800

/-- A BF16 matrix of `n` by 1 elements at the data page. -/
def matrix (n : Nat) : List Word :=
  [0x21, 0x10000, 0, BitVec.ofNat 64 (2 ^ 32 + n), 0, 0, 0, 0, 0, 2, 64, 0, 0, 0, 0, 0, 0, 0, 0, 0, 0, 0, 0, 0]

/-- The last step of that product, over a matrix of `n`. -/
def producing (n : Nat) : State :=
  (queued (bcmd (.mma product) (matrix n)) (some { step := 3, mats := [], nums := [], k := 0, todo := [] })).updTeam 0 fun t => { t with tiles := [(15, [])] }

/-- The same with 32 elements, NaN as the last one. -/
def nanStep : State := { producing 32 with mem := writeMem (producing 32).mem 0x1003E [0xC0, 0x7F] }

/-- The value that an engine's read gave. -/
def okOf {α : Type} (r : State × Except EngStop α) : Option α :=
  match r.2 with
  | .ok x => some x
  | _ => none

/-- The lines that the last step reads. -/
def lines (s : State) (n : Nat) : State × Except EngStop (List (List Opnd)) :=
  s.fetchLines (tm0 s).bruinEng (matrix n) false ((List.range 8).map fun j => 24 + j) 128 0

/-- The lines, where there are any. -/
def linesOf (s : State) (n : Nat) : List (List Opnd) := (okOf (lines s n)).getD []

theorem witness_latched : let s := lone.updTeam 0 fun t =>
      { t with cv := vset t.cv 15 { (vget t.cv 15 { cnt := 0, sig := 0, armed := false, cmd := 0, latch := none }) with latch := some (product, 1) } }
    (tget s.teams 0 = some (tm0 s)) ∧ (s.ctx (tm0 s).ctx).away = false ∧ (tm0 s).finished = false ∧ (tm0 s).gone = false
    ∧ (tm0 s).bruin.cmds.length < 64 ∧ (tm0 s).latched = some (15, product, 1) := by decide +kernel

theorem witness_passes :
    (∀ c ∈ [BCmd.mzero 15, .mma 1], let s := queued (bcmd c []) none
      s.bruinPick 0 = some 0 ∧ tget (Claim.served s 0 0).teams 0 = some (tm0 (Claim.served s 0 0))
      ∧ (tm0 (Claim.served s 0 0)).bruin.cmds = [bcmd c []] ∧ (tm0 (Claim.served s 0 0)).bruin.prog = none)
    ∧ (let s := (queued (bcmd (.mzeroRel 15) []) none).updTeam 0 fun t => { t with tiles := [(15, [(0, 1)])] }
       s.bruinPick 0 = some 0 ∧ (tm0 (Claim.served s 0 0)).bruin.prog = none) := by decide +kernel

theorem witness_product : ∀ p ∈ [(24, producing 24), (32, nanStep)], let s := Claim.served p.2 0 0
    p.2.bruinPick 0 = some 0 ∧ tget s.teams 0 = some (tm0 s)
    ∧ 3 + 1 = mmaSteps product (matrix p.1) ∧ bits product 62 59 = 15 ∧ bits product 34 23 = 0 ∧ mmaRow0 product (matrix p.1) = 0
    ∧ mmaCol0 product = 0 ∧ kWidth (matrix p.1) = 8 ∧ dFmt (matrix p.1) ≠ 0
    ∧ okOf (lines s p.1) = some (linesOf s p.1)
    ∧ okOf (lines (lines s p.1).1 p.1) = some (linesOf s p.1) := by decide +kernel

theorem witness_sums : let rows := linesOf (Claim.served (producing 24) 0 0) 24
    let bad := linesOf (Claim.served nanStep 0 0) 32
    rows.length = 128 ∧ (rows.all fun r => decide (r = rows.headD [])) = true
    ∧ accStep false 0 (rows.headD []) (rows.headD []) ≠ none ∧ accStep false 0 (bad.headD []) (bad.headD []) = none := by
  decide +kernel

/-! ### Chains and copy engines -/

/-- Chain 63 of context 0, enabled on cluster 0, with its next entry at the data page. -/
def chained (f : Chain → Chain) : State :=
  device.updChain 0 63 fun c => f { c with en := true, base := 0x10000, seg := 0x10000, len := 4, next := 1, tail := 1 }

/-- The entry at the data page has these words. -/
def entered (ws : List Word) : State :=
  let s := chained id
  { s with mem := writeMem s.mem 0x10000 (ws.flatMap fun w => leBytes 8 w.toNat) }

/-- The bytes that the chain reads there. -/
def entry (s : State) : State × Except EngStop (List Byte) := s.engRead (s.chainEng 0 63 []) 0x10000 64

theorem witness_chain_registers : (∀ ch ∈ [63, 67], (device.chain 0 ch).en = false ∧ (device.chain 0 ch).draining = false
      ∧ device.namesEctx 0 (if ch < 64 then ch else 0x1000 + (ch - 64)) = true)
    ∧ (0x10041#64).getLsbD 0 = true ∧ bits 0x10041#64 11 6 ≠ 0
    ∧ (device.ctx 0).part.getLsbD (bits 0x10041#64 5 1) = true ∧ bits 0x10041#64 63 56 = 0
    ∧ (device.ctx 0).window (0x10041#64 &&& 0xFFFFFFFFFFFFF000) = none
    ∧ (device.ctx 0).window ((0x00FFFFFE00000041#64) &&& 0xFFFFFFFFFFFFF000) ≠ none
    ∧ ((chained id).chain 0 63).en = true
    ∧ (let s := chained fun c => { c with tails := [{ n := 2, core := 0, bank := 1, wnum := 4, team := 0 }] }
       ∀ x ∈ (s.chain 0 63).tails, x.bank < 2 ∧ (vget (s.core x.core).open' x.bank []).Nodup) := by decide +kernel

theorem witness_chain_entries :
    (∀ ws ∈ [[2, 0, 0, 0, 0, 0, 0, 0], [1, 0, 0, 0, 0, 0, 0, 0], [1, 0x70000000, 0, 0, 0, 0, 0, 0]], let s := entered ws
      s.chainLooks 0 63 = true ∧ (s.chain 0 63).slot ≠ (s.chain 0 63).len
      ∧ okOf (entry s) = some (ws.flatMap fun w => leBytes 8 w.toNat)
      ∧ (ws.flatMap fun w : Word => leBytes 8 w.toNat).length = 64)
    ∧ (entry (entered [1, 0, 0, 0, 0, 0, 0, 0])).1.entryFault 0 [1, 0, 0, 0, 0, 0, 0, 0] = none
    ∧ reservedAt [1, 0x70000000, 0, 0, 0, 0, 0, 0] (entReserved [1, 0x70000000, 0, 0, 0, 0, 0, 0]) = none := by decide +kernel

/-- An entry in execution with these words, and its tensors. -/
def moving (ws src dst ix : List Word) (pos : Nat) : Running :=
  { words := ws, src := .valid { words := src, addr := 0 }, dst := .valid { words := dst, addr := 0 }, idx := .valid { words := ix, addr := 0 },
    checked := true, pos := pos, finished := false, waiting := none, got := [], cluster := 0, todo := [] }

/-- Chain 63 runs that entry. -/
def runsEntry (r : Running) : State := chained fun c => { c with next := 2, slot := 1, run := some r }

theorem witness_running : ∀ p ∈ [((0 : Word), 0), (0x60000000, 6)], let r := moving [1, p.1, 0, 0, 0, 0, 0, 0] [] [] [] 0
    ((runsEntry r).chain 0 63).run = some r ∧ ((runsEntry r).chain 0 63).frozen = false ∧ ((runsEntry r).ctx 0).frozen = false ∧ entOp r.words = p.2 := by
  decide +kernel

/-- Chain 63 has the turn with the last unit of an entry, as the checks of that. -/
theorem last_iff {s : State} {op : Nat} {r : Running} : Claim.LastUnit s 0 63 op r ↔ (s.chain 0 63).run = some r ∧ entOp r.words = op
    ∧ (op = 2 ∨ r.checked = true) ∧ s.copyNext r.cluster = some (0, 63) ∧ r.todo = [] ∧ r.pos < r.total
    ∧ r.total ≤ r.pos + if op = 2 then rawPart r.words r.pos else 1 where
  mp h := ⟨h.run, h.kind, h.checked, h.turn, h.whole, h.more, h.last⟩
  mpr := fun ⟨run, kind, checked, turn, whole, more, last⟩ => { run, kind, checked, turn, whole, more, last }

/-- A vector of three elements of a format at an address. -/
def vector (fmt : Nat) (a : Word) : List Word :=
  [BitVec.ofNat 64 (0x10 + fmt), a, 0, 3, 0, 0, 0, 0, 0, 4, 0, 0, 0, 0, 0, 0, 0, 0, 0, 0, 0, 0, 0, 0]

/-- A row of three elements. -/
def row (fmt : Nat) (a : Word) : List Word :=
  [BitVec.ofNat 64 (0x20 + fmt), a, 0, 0x300000001, 0, 0, 0, 0, 0, 4, 4, 0, 0, 0, 0, 0, 0, 0, 0, 0, 0, 0, 0, 0]

/-- The last unit of RAW, FILL, COPY with one format and with two, GATHER, and REDADD. -/
def rawRun : Running := moving [1, 0x20000000, 0x10100, 0x10200, 4, 0, 0, 0] [] [] [] 0
def fillRun : Running := moving [1, 0x30000000, 0x55, 0, 0, 0, 0, 0] [] (vector 0 0x10200) [] 2
def copyRun (fmt : Nat) : Running := moving [1, 0x10000000, 0, 0, 0, 0, 0, 0] (vector 0 0x10100) (vector fmt 0x10200) [] 2
def gatherRun : Running := moving [1, 0x40000000, 0, 0, 0, 0, 0, 0] (row 0 0x10100) (row 0 0x10200) (vector 8 0x10300) 2
def redaddRun : Running := moving [1, 0x50000000, 0xFFF, 0, 0, 0, 0, 0] (vector 1 0x10100) (vector 0 0x10200) [] 2

theorem witness_units : Claim.LastUnit (runsEntry rawRun) 0 63 2 rawRun ∧ Claim.LastUnit (runsEntry fillRun) 0 63 3 fillRun
    ∧ Claim.LastUnit (runsEntry (copyRun 0)) 0 63 1 (copyRun 0) ∧ Claim.LastUnit (runsEntry (copyRun 2)) 0 63 1 (copyRun 2)
    ∧ Claim.LastUnit (runsEntry gatherRun) 0 63 4 gatherRun ∧ Claim.LastUnit (runsEntry redaddRun) 0 63 5 redaddRun := by
  simp only [last_iff]; decide +kernel

/-- An engine of the chain reads, and then writes, so many bytes. -/
def reaches (r : Running) (a b : Word) (n k : Nat) : Bool :=
  let s := runsEntry r
  match s.engRead (s.chainEng 0 63 []) a n with
  | (u, .ok bs) => bs.length == n && match u.engWrite (s.chainEng 0 63 []) b (List.replicate k 1) with
      | (_, .ok _) => true
      | _ => false
  | _ => false

theorem witness_copies : reaches rawRun 0x10100 0x10200 4 4 = true
    ∧ reaches (copyRun 0) (elemAddr (copyRun 0).srcW (unitIx (copyRun 0).dstW 2)) (elemAddr (copyRun 0).dstW (unitIx (copyRun 0).dstW 2)) 4 4 = true
    ∧ reaches gatherRun (elemAddr gatherRun.idxW [(unitIx gatherRun.dstW 2).getLastD 0]) (elemAddr gatherRun.dstW (unitIx gatherRun.dstW 2)) 4 4 = true
    ∧ dSize gatherRun.srcW (dRank gatherRun.srcW - 1) = 3
    ∧ dFmt gatherRun.srcW = dFmt gatherRun.dstW ∧ dFmt (copyRun 2).srcW ≠ dFmt (copyRun 2).dstW
    ∧ (let a := elemAddr redaddRun.dstW (unlin (dSizes redaddRun.srcW) 2)
       (runsEntry redaddRun).onUo 0 a = false ∧ a.toNat < 2 ^ 56 ∧ reaches redaddRun a a 4 4 = true
       ∧ okOf ((runsEntry redaddRun).engPlaces ((runsEntry redaddRun).chainEng 0 63 []) a 4 true) = some [(a.toNat, 4)]
       ∧ entIdx redaddRun.words = false ∧ dDxb redaddRun.dstW = false) := by decide +kernel

/-! ### Render engines, streams and consumers -/

/-- A display output of 64 by 16 pixels in one strip, rendered in cluster 0: three render slots and two output slots in
granule 1. -/
def shown : List Word :=
  [0x0040001000603200, 0x0001000000016000, 0, 0, 0, 0, 0, 0, 0x0060002000000000, 1000, 0, 0, 0, 0, 0, 0]

/-- A stream record of context 0: core 0, bank 0, a frame each millisecond, up to `n` frames. -/
def streamRecord (n : Word) : List Word :=
  [0x01000000, 0x10080, 0, 0x000F4240000F4240, 0x000186A000000000, 99999, 0x10100, 0, n, 0, 0, 0, 0, 0, 0, 0]

/-- Those records at the data page, with a template card at 0x10100 and its kernel's header at 0x10200. -/
def recorded (n : Word) : State :=
  let header : List Word := [0x0000FF0000200003, 64, 0, 0, 0xFFFFFFFF00000000, 0xFFFFFFFFFFFFFFFF, 0xFFFFFFFFFFFFFFFF, 0xFFFFFFFFFFFFFFFF]
  let card : List Word := [5, 0x10200, 0x10300, 0, 0, 0, 0, 0, 0, 0xFFFF, 0, 0, 0, 0, 0, 0]
  let s := timed 0
  let words := fun (m : List Host.Cell) (a : Nat) (ws : List Word) => writeMem m a (ws.flatMap fun w => leBytes 8 w.toNat)
  let s : State := { s with mem := words (words (words (words s.mem 0x10000 (streamRecord n)) 0x10080 shown) 0x10100 card) 0x10200 header }
  let s : State := { s with package := { s.package with dpstat := [(0, 0xC0)] } }
  (s.updStream 63 fun t => { t with srec := 0x10000 }).updCluster 0 fun c => { c with owner := [(0, 0x4000), (1, 0x8000)] }

/-- What admission's checks give. -/
def checked (s : State) : Option (List Word × List Word) :=
  match (s.admitChecks 63 0x10000).2 with
  | .ok x => some x
  | _ => none

/-- The record that admission's checks give. -/
def refused (s : State) : Option (Option Nat × BitVec 5 × Word × Nat) :=
  match s.admitChecks 63 0x10000 with
  | (c, .error (.record k a e)) => some (c, k, a, e)
  | _ => none

theorem witness_admission : ((recorded 0).stream 63).state = 0 ∧ checked (recorded 0) = some (streamRecord 0, shown)
    ∧ 0 < bits (wordAt (streamRecord 0) 3) 31 0
    ∧ (let s := (recorded 0).updCluster 0 fun c => { c with owner := [] }
       (refused s).any (fun r => r.1 == some 0 && r.2.1 == 0x13) = true ∧ s.resident 0 = true) := by decide +kernel

/-- The stream admitted, up to `n` frames; device time has reached the start of its next act. -/
def admitted (n : Word) : State :=
  (recorded n).updStream 63 fun t =>
    { t with state := 1, rec' := streamRecord n, odesc := shown, ctx := 0, firstf := 2000, nextF := 2000, nextS := 0, lineF := 2000 }

/-- Its first act started. -/
def acting : State := nextOf (exec (.actStart 63) (admitted 0))

/-- The act of `acting`. -/
def theAct (s : State) : OpenAct :=
  ((s.stream 63).acts.head?).getD
    { frame := 0, strip := 0, card := 0, team := none, output := false, zeroed := false, rasterised := false, abandoned := false, closed := none }

/-- The act's card retired with a CODE. -/
def closed (c : Nat) (s : State) : State :=
  s.updStream 63 fun t => { t with acts := t.acts.map fun a => { a with closed := some c } }

/-- The stream has a card that makes its output. -/
def outputs (s : State) : State := s.updStream 63 fun t => { t with rec' := t.rec'.set 7 0x10100 }

theorem witness_acts : ((admitted 0).stream 63).state = 1
    ∧ ((admitted 0).stream 63).tStart ((admitted 0).stream 63).nextF ((admitted 0).stream 63).nextS ≤ (admitted 0).time.now / 65536
    ∧ wordAt ((admitted 0).stream 63).rec' 8 = 0 ∧ (acting.stream 63).acts.length = 1 := by decide +kernel

theorem witness_stopping : ((admitted 0).stream 63).acts = [] ∧ ((admitted 0).stream 63).outputs = [] ∧ (acting.stream 63).state = 1
    ∧ (acting.stream 63).acts ≠ []
    ∧ (∀ p ∈ [(acting, false), (admitted 0, true)],
       let t := p.1.updStream 63 fun t => { t with rec' := t.rec'.set 8 1, firstf := t.firstf - 1 }
       (t.stream 63).state = 1 ∧ ((t.stream 63).acts.isEmpty && (t.stream 63).nextOutput.isNone) = p.2 ∧ wordAt (t.stream 63).rec' 8 ≠ 0
       ∧ (t.stream 63).tStart ((t.stream 63).firstf.toNat + (wordAt (t.stream 63).rec' 8).toNat) 0 ≤ t.time.now / 65536)
    ∧ ((((admitted 0).updStream 63 fun t => { t with outputs := [2000 * odNS shown] }).stream 63).nextOutput).isSome = true := by
  decide +kernel

/-- The last act of a stopping stream has closed. -/
def ending (s : State) : State := (closed 0 s).updStream 63 fun t => { t with state := 2 }

theorem witness_last_act : ∀ p ∈ [(acting, false), (outputs acting, true)], ((ending p.1).stream 63).state = 2
    ∧ ((ending p.1).stream 63).nextClosed.any (fun q => ((ending p.1).stream 63).acts.all fun o => o.card == q.1.card) = true
    ∧ ((nextOf (exec (.actRetire 63) (ending p.1))).stream 63).nextOutput.isSome = p.2 := by decide +kernel

theorem witness_act_retires :
    (∀ c ∈ [0, 3, 1], (∀ s ∈ [acting, outputs acting], let t := closed c s
      (t.stream 63).nextClosed = some ({ theAct s with closed := some c }, c) ∧ (theAct s).output = false ∧ (t.stream 63).state = 1
      ∧ (theAct s).frame * odNS (t.stream 63).odesc + (theAct s).strip ∉ (t.stream 63).missed
      ∧ tget (t.stream 63).slots ((theAct s).frame * odNS (t.stream 63).odesc + (theAct s).strip) = none))
    ∧ wordAt (acting.stream 63).rec' 7 = 0 ∧ wordAt ((outputs acting).stream 63).rec' 7 ≠ 0
    ∧ (let g := (theAct acting).frame * odNS shown + (theAct acting).strip
       let s := acting.missStrip 63 g
       g ∈ (s.stream 63).missed ∧ ((closed 1 s).stream 63).nextClosed.isSome = true) := by decide +kernel

theorem witness_outputs : let s := (outputs acting).updStream 63 fun t => { t with outputs := [7] }
    (s.stream 63).nextOutput = some 7 ∧ 0 < odNS (s.stream 63).odesc := by decide +kernel

theorem witness_abandoned :
    let s : State := { acting with time := { acting.time with now := acting.time.now + 2000000 * 65536 } }
    s.nextAbandon (s.stream 63) = some (theAct acting) ∧ (tget s.cards (theAct acting).card).isSome = true
    ∧ (s.cluster 0).raster = none := by decide +kernel

/-- The rasteriser of cluster 0 on a strip of 1,024 by 16 pixels, of the lone team. -/
def rasterising (tile : Nat) (f : Raster → Raster) : State :=
  let s := lone.updStream 63 fun t => { t with state := 1, odesc := shown.set 0 0x0400001000603200, rec' := streamRecord 0 }
  let s := s.updTeam 0 fun t => { t with w := vset t.w 0 { (t.queue 0) with init := true, logCap := 1 } }
  s.updCluster 0 fun c => { c with raster := some (f
    { ctx := 0, stream := 63, frame := 0, strip := 0, team := 0, lists := 0x10000, prims := 0x10100, cap := 4, begun := true, tras := 0,
      list := [], tile := tile, checked := 0, records := [], stalled := false, waiting := none, got := [] }) }

/-- The rasteriser's state. -/
def rasterOf (s : State) : Raster := ((s.cluster 0).raster).getD
  { ctx := 0, stream := 0, frame := 0, strip := 0, team := 0, lists := 0, prims := 0, cap := 0, begun := false, tras := 0, list := [],
    tile := 0, checked := 0, records := [], stalled := false, waiting := none, got := [] }

theorem witness_raster : let s := rasterising 16 id
    let all := stripTiles (s.stream 63).odesc 0
    16 < all ∧ (s.cluster 0).raster = some (rasterOf s) ∧ tget s.teams 0 = some (tm0 s) ∧ (tm0 s).finished = false ∧ (tm0 s).gone = false
    ∧ (s.ctx 0).frozen = false ∧ (rasterOf s).checked < 16 ∧ (rasterOf s).tras ≤ s.time.now
    ∧ ((tm0 s).queue (bits (wordAt (s.stream 63).odesc 0) 2 0)).init = true
    ∧ ((tm0 s).queue (bits (wordAt (s.stream 63).odesc 0) 2 0)).entries.length < 2 ^ ((tm0 s).queue (bits (wordAt (s.stream 63).odesc 0) 2 0)).logCap
    ∧ (rasterOf (rasterising all fun r => { r with checked := all })).tile = all
    ∧ (rasterOf (rasterising 1 fun r => { r with records := [5] })).records = [5]
    ∧ ((tget finished.teams 0).all fun t => t.finished || t.gone) = true
    ∧ (rasterOf s).waiting = none ∧ (rasterOf s).stalled = false ∧ okOf (s.rasterTile (tm0 s) (s.stream 63).odesc (rasterOf s) 0) = some [] := by
  decide +kernel

/-- A primitive at depth 0.5 that covers the strip: its corners are (−128, −128), (8192, −128) and (−128, 8192). -/
def primitive : List Word := [0xC3000000C3000000, 0xC300000046000000, 0x46000000C3000000, 0x3F0000003F000000, 0x3F000000, 0, 0, 0]

/-- The depth of its first point lies in a segment that is dead (R152). -/
theorem witness_dead_depths :
    let s := (rasterising 16 fun r => { r with list := [(0, primitive)] }).updCluster 0 fun c => { c with live := [] }
    (match (s.rasterTile (tm0 s) (s.stream 63).odesc (rasterOf s) 0).2 with
      | .error (.fault c _) => decide (c = 9)
      | _ => false) = true := by decide +kernel

/-- Binner 3 has a job of one primitive, of memory's zeros. -/
def binning : State :=
  let s := rasterising 16 id
  let r := moving [1, 0x3F00000001, 0x10000, 0x10800, 4, 0, 0, 0] [] [] [] 0
  s.updChain 0 67 fun c => { c with en := true, base := 0x10000, seg := 0x10000, len := 4, next := 2, tail := 1, slot := 1, run := some r }

theorem witness_binner : binning.binnerMoves 0 3 = true
    ∧ (let ws := [1, 0x3F00000001, 0x10000, 0x10800, 4, 0, 0, 0]
       let d := (binning.stream (bits (wordAt ws 1) 37 32)).odesc
       let e := binning.chainEng 0 67 []
       match binning.binPrims e d ws (bits (wordAt ws 1) 31 0) 0 (List.replicate (odNS d) []) with
       | (u, .ok ls) => (match (u.engWrites e (ls.zipIdx.flatMap fun p => stripWrites (odNS d) ws p.2 p.1)).2 with
           | .ok _ => true
           | _ => false)
       | _ => false) = true := by decide +kernel

/-- A ray from (0.25, 0.25, 0) along z, its tree at 0x10080. -/
def ray (d : Word) : Ray :=
  { num := 1, sid := 0, tok := some 5, dst := 0, words := [0x3E8000003E800000, 0, d, 0x7F80000000000000, 0], addr := 0x10000, place := some 0x10000,
    root := 0x10080, wnum := 1, found := none }

/-- The team's ray queue holds it; the tree is one leaf of one triangle whose first vertex has `z`. -/
def raying (d z : Word) : State :=
  let node : List Word := [0xFF800000FF800000, 0x7F800000FF800000, 0x7F8000007F800000, 0, 0, 0, 0, 0, 0, 0, 0, 0, 0x8000000000000080, 0, 0, 0]
  let tri : List Word := [0, 0x3F80000000000000 ||| z, z <<< 32, 0x3F80000000000000, 0x0000000900000000 ||| z, 0]
  let s : State := { lone with mem := writeMem (writeMem lone.mem 0x10080 (node.flatMap fun w => leBytes 8 w.toNat)) 0x10100
                                        (tri.flatMap fun w => leBytes 8 w.toNat) }
  s.updTeam 0 fun t => { t with rays := { t.rays with rays := [ray d], accepted := 1 } }

/-- How the walk of a ray of `s` ends. -/
def walked (s : State) (d : Word) : Option (Option WalkEnd × Option RayHit) :=
  (rayIn (ray d).words).map fun q => (walkNode (tm0 s).rayEng q 0x10080 64 0x10080 (s, none, none)).2

theorem witness_rays : (∀ s ∈ [raying 0x3F80000000000000 0x3F800000], tget s.teams 0 = some (tm0 s) ∧ (tm0 s).rays.rays = [ray 0x3F80000000000000]
      ∧ s.rayMoves 0 = true ∧ Machine.dstW (ray 0).dst = none ∧ (ray 0).found = none ∧ (ray 0).place.isSome = true)
    ∧ (∀ s ∈ [raying 0x3F80000000000000 0x3F800000],
      (okOf (s.engWrite (tm0 s).rayEng (s.uvAddr (tm0 s) { ray 0x3F80000000000000 with place := none }) (List.replicate 8 0))).isSome = true)
    ∧ rayIn (ray 0).words = none
    ∧ walked (raying 0x3F80000000000000 0xBF800000) 0x3F80000000000000 = some (none, none)
    ∧ (walked (raying 0x3F80000000000000 0x3F800000) 0x3F80000000000000).any (fun r => r.1 == none && r.2.isSome) = true := by
  decide +kernel

/-- Stream 63 has an encoder: a frame of 64 by 128 pixels in eight strips, of which `row` of two rows is next. -/
def encoding (row : Nat) : State :=
  let slots : Tbl SlotState := (List.range 8).map fun g => (g, if g = 1 then .missed else .ready)
  device.updStream 63 fun t =>
    { t with state := 1, odesc := [0x0040008000003200, 0, 0, 0, 0x10000, 0x0000000400001000, 0x10800, 0], rec' := streamRecord 0, encRow := row, slots := slots }

theorem witness_encoder : ((encoding 0).stream 63).rowSlots.isSome = true ∧ ((encoding 1).stream 63).rowSlots.isSome = true
    ∧ ((encoding 0).stream 63).state = 1 ∧ odCons ((encoding 0).stream 63).odesc = 0
    ∧ ((encoding 0).stream 63).encRow + 1 < codedRows ((encoding 0).stream 63).odesc
    ∧ codedRows ((encoding 1).stream 63).odesc ≤ ((encoding 1).stream 63).encRow + 1 ∧ (63 : Nat) < 4096
    ∧ (encoding 0).rowFlawed 63 = false ∧ (encoding 1).rowFlawed 63 = false
    ∧ ({ encoding 0 with flaws := [(((encoding 0).stream 63).rowParts.headD (0, 0)).1 / 8 |> fun w => (w, 2)] } : State).rowFlawed 63 = true
    ∧ ((encoding 1).agentWrite 0 (wordAt ((encoding 1).stream 63).odesc 6) true
        (Claim.recordBytes ((encoding 1).stream 63) 0 1 2)).isSome = true := by decide +kernel

/-- A sum of 32-bit values, each with one more. -/
theorem sum_bounds (n : Nat) (ps : List CodedPart) :
    ps.length ≤ (ps.map fun p => (Config.av1Length n p).toNat + 1).sum
    ∧ (ps.map fun p => (Config.av1Length n p).toNat + 1).sum ≤ ps.length * 2 ^ 32 := by
  induction ps with
  | nil => simp
  | cons p ps ih =>
    have := (Config.av1Length n p).isLt
    simp only [List.map_cons, List.sum_cons, List.length_cons]
    omega

/-- The stream with a ring that its reader has emptied long since, and with no ring. -/
def roomy : Stream := { (encoding 1).stream 63 with bsrd := 0x8000000000000000 }
def cramped : Stream := { (encoding 1).stream 63 with odesc := ((encoding 1).stream 63).odesc.set 5 0 }

/-- Whatever the length of the unit, the first has room for it, and the second has not. -/
theorem witness_ring_room :
    roomy.bswr.toNat + Claim.unitLen (encoding 1) roomy ≤ roomy.bsrd.toNat + bits (wordAt roomy.odesc 5) 31 0
    ∧ ¬cramped.bswr.toNat + Claim.unitLen (encoding 1) cramped ≤ cramped.bsrd.toNat + bits (wordAt cramped.odesc 5) 31 0 := by
  have a := (sum_bounds (encoding 1).freeCtr roomy.unitParts).2
  have b := (sum_bounds (encoding 1).freeCtr cramped.unitParts).1
  have c : roomy.unitParts.length = 5 ∧ cramped.unitParts.length = 5 ∧ roomy.bswr.toNat = 0 ∧ cramped.bswr.toNat = 0
      ∧ cramped.bsrd.toNat + bits (wordAt cramped.odesc 5) 31 0 = 0 ∧ 2 ^ 40 ≤ roomy.bsrd.toNat := by decide +kernel
  simp only [Claim.unitLen]
  omega

/-- The next line of the display stream is `n`. -/
def showing (n : Nat) : State := (admitted 0).updStream 63 fun t => { t with line := n, lineF := 1 }

theorem witness_display : ∀ n ∈ [0, 15, 16], (showing n).displayStream 0 = some 63 ∧ (showing n).lineDue ((showing n).stream 63) = true
    ∧ (((showing n).stream 63).line < odOH ((showing n).stream 63).odesc ∨ n = 16) := by decide +kernel

/-! ### Swaps, failures and host queues -/

/-- The context swapped out, from a state whose thread is not at the issue slot. -/
def away : State := nextOf (exec (.contextSwapOut 0) { lone with issuing := none })

theorem witness_swaps : (lone.ctx 0).saved = none ∧ lone.inStream 0 = false ∧ lone.swapReady 0 = true
    ∧ (∀ p ∈ lone.groups, p.2.part = none) ∧ (∀ p ∈ lone.threads, p.1 = 0 → p.2 = thr lone) ∧ (tm0 lone).ctx = 0
    ∧ (flying (access (.load [(8, false, 5)]) .globalLp6 8)).swapReady 0 = false
    ∧ (away.ctx 0).saved ≠ none ∧ (admitted 0).inStream 0 = true
    ∧ ((List.range 64).any fun y => lone.waitsFor 0 y) = false := by decide +kernel

theorem witness_restore : (∃ v, (away.ctx 0).saved = some v ∧ away.restorable 0 v [] = true ∧ (v.threads.map Prod.fst).Nodup
    ∧ (v.cells.map Prod.fst).Nodup) := by
  refine ⟨((away.ctx 0).saved).getD { threads := [], bins := [], parts := [], segs := [], cells := [], flaws := [], units := [], sizes := [] }, ?_⟩
  decide +kernel

/-- Context 1, of the same partition and priority, waits for its turn. -/
def rivalled : State :=
  ({ lone with time := (timed 0).time } : State).updCtx 1 fun c =>
    { c with part := 1, maxprio := 15, saved := (away.ctx 0).saved, sliced := true }

theorem witness_slice : (rivalled.ctx 0).away = false ∧ rivalled.inStream 0 = false
    ∧ (rivalled.cores.any fun p => !(p.2.banksOf 0).isEmpty) = true
    ∧ (rivalled.ctx 0).turnFrom + (rivalled.ctx 0).sliceNs ≤ rivalled.time.now / 65536 ∧ rivalled.waitsFor 0 1 = true := by
  decide +kernel

theorem witness_failures : (3 : Nat) < 4 ∧ (tget lone.teams 0 = some (tm0 lone)) ∧ (tm0 lone).gone = false ∧ (tm0 lone).core / 8 = 0
    ∧ (tm0 lone).killed = false ∧ (lone.ctx (tm0 lone).ctx).saved = none
    ∧ (let s := queued (bcmd (.mzero 15) []) none
       tget s.teams 0 = some (tm0 s) ∧ (tm0 s).gone = false ∧ (tm0 s).killed = false ∧ (tm0 s).core / 8 = 0
       ∧ (s.ctx (tm0 s).ctx).saved = none ∧ (tm0 s).bruin.cmds ≠ [])
    ∧ (let s := runsEntry rawRun
       (s.chain 0 63).run = some rawRun ∧ rawRun.cluster = 0 ∧ (s.chain 63 67).run = none) := by decide +kernel

/-- Host queue 255 of context 0 with these packets, its memory at the data page. -/
def hosted (ps : List Packet) : State :=
  device.updHostq 255 fun h => { h with en := true, rbase := 0x10000, kick := 9, done := 8, fetched := ps }

theorem witness_host_queues : (hosted []).hostq 255 = { (hosted []).hostq 255 with en := true, stopped := false } ∧ ((hosted []).hostq 255).done.toNat + 0 < ((hosted []).hostq 255).kick.toNat
    ∧ ((hosted []).agentRead 0 (0x10000 + BitVec.ofNat 64 (64 * (8 % 64))) false 64).isSome = true
    ∧ ((hosted []).ctx 0).window (0x10000 + BitVec.ofNat 64 (64 * (8 % 64))) = none ∧ (device.hostq 255).en = false := by
  decide +kernel

/-- A packet of these words. -/
def packet (ws : List Word) : Packet := { num := 9, words := ws }

theorem witness_packets : ∀ ws ∈ ([[0, 0, 0, 0, 0, 0, 0, 0], [3, 0x10, 1, 0, 0, 0, 0, 0], [4, 0x4010, 1, 0, 0, 0, 0, 0], [5, 0x10000, 64, 0, 0, 0, 0, 0],
      [6, 0, 0, 0, 0, 0, 0, 0], [1, 0x10000, 0, 0, 0, 0, 0, 0]] : List (List Word)),
    (hosted [packet ws]).packet 255 = some (packet ws) ∧ ws.length = 8
    ∧ (hosted [packet ws]).packetFault 255 (packet ws) = none := by decide +kernel

theorem witness_bad_packets : ∀ ws ∈ ([[256, 0, 0, 0, 0, 0, 0, 0], [7, 0, 0, 0, 0, 0, 0, 0]] : List (List Word)),
    (hosted [packet ws]).packet 255 = some (packet ws)
    ∧ ((bits (wordAt ws 0) 63 8 ≠ 0 ∧ bits (wordAt ws 0) 7 0 = 0)
      ∨ (6 < bits (wordAt ws 0) 7 0 ∧ bits (wordAt ws 0) 63 8 = 0 ∧ ∀ i, i < 8 → 1 ≤ i → wordAt ws i = 0)) := by decide +kernel

theorem witness_launch_packet : let s := (carded (hosted [packet [1, 0x10000, 0, 0, 0, 0, 0, 0]])).updCtl 3 fun c => { c with cur := some 255, lastQ := [(0, 255)] }
    (s.agentRead 0 0x10000 false 128).isSome = true ∧ accepted (s.accept 0 0x10000 .launch 0 id) = true
    ∧ s.cardAddrBad 0 0x10001 ≠ none
    ∧ (match (s.accept 0 0x10001 .launch 0 id).2 with | .failed _ => true | _ => false) = true := by decide +kernel

/-- FLUSH of the data page with no write in flight, and with one to it. -/
theorem witness_flush : let s := hosted [packet [5, 0x10000, 64, 0, 0, 0, 0, 0]]
    s.flushWaits 0 0x10000 64 = false ∧ s.ops = [] ∧ (∀ m ∈ s.teams, m.2.bruin.cmds = [] ∧ m.2.rays.rays = [])
    ∧ (∀ p ∈ s.ctxs, p.2.chains = [] ∧ p.2.binners = [])
    ∧ storing.isStore = true ∧ storing.ctx = 0 ∧ ∃ x ∈ storing.pieces, rangesMeet x.va.toNat x.len 0x10000 64 = true := by
  decide +kernel

/-- A graph of one entry at 0x10400 whose card is that of `carded`. -/
def graphed : State :=
  let s := carded (hosted [packet [2, 0x10400, 1, 0, 0, 0, 0, 0]])
  { s with mem := writeMem s.mem 0x10400 (leBytes 16 0x10000) }

theorem witness_graph : graphed.packet 255 = some (packet [2, 0x10400, 1, 0, 0, 0, 0, 0])
    ∧ graphed.packetFault 255 (packet [2, 0x10400, 1, 0, 0, 0, 0, 0]) = none ∧ (graphed.hostq 255).graph = none
    ∧ (graphed.agentRead 0 0x10400 false (16 * 1)) = some (leBytes 16 0x10000)
    ∧ (let ws := leWords 2 (leBytes 16 0x10000)
       bits (wordAt ws 1) 63 16 = 0 ∧ (graphed.agentRead 0 (wordAt ws 0) false 128).isSome = true) := by decide +kernel

/-! ### Encodings, operands and steps -/

/-- A selector's form. -/
def readsForm (x : BitVec 7) : Form := Claim.reads 0 x

/-- Hardware queue 7 of the team holds one entry. -/
def filledQueue : State :=
  lone.updTeam 0 fun t => { t with w := vset t.w 7 { (t.queue 7) with init := true, logCap := 0, tail := 1, entries := [{ stamp := 0, tok := none }] } }

/-- The group has issued last, and its latches hold 1 and 2. -/
def latched : State :=
  (lone.updThread 0 fun th => { th with b0 := some (.known 1), b1 := some (.known 2) }).updCore 0 fun c => { c with lastGroup := some 0 }

theorem witness_selectors : ReadyIn (readsForm 0) lone ∧ ReadyIn (readsForm 0x57) filledQueue
    ∧ ((tm0 filledQueue).queue 7).entries = [{ stamp := 0, tok := none }]
    ∧ (latched.core 0).lastGroup = some 0 ∧ (thr latched).b0 = some (.known 1) ∧ (thr latched).b1 = some (.known 2)
    ∧ (∀ n ∈ [1, 2, 3], (Claim.wides (runs (List.replicate n 0xFE000005#32) |> fun s => (grp s).run)).length = n)
    ∧ AloneIn lone ∧ (tm0 lone).frozen = false ∧ runFault (tm0 lone).hdr (grp lone).run = none ∧ (thr lone).guard 0 = true
    ∧ (grp lone).window = none ∧ runPart (grp lone).run 1 = none ∧ 0 < (tm0 lone).hdr.ver := by
  simp only [ready_iff]; decide +kernel

theorem witness_destinations : ReadyIn (Claim.formU 0 0 0x0F 0) (with3 7 1 2) ∧ ReadyIn (Claim.formU 0 2 0x0F 0) (with3 7 1 2)
    ∧ ReadyIn (Claim.formU 0 0x2F 0x0F 0) (with3 7 1 2)
    ∧ ReadyIn (Claim.formU 0 0x37 0x0F 0) (lone.updTeam 0 fun t => { t with w := vset t.w 7 { (t.queue 7) with init := true, logCap := 0 } })
    ∧ (0x3F : BitVec 6).toNat ≥ 0x38 ∧ (3 : BitVec 6).toNat ≥ 3 := by
  simp only [ready_iff]; decide +kernel

theorem witness_dxb : (63 : Nat) < (if true then 64 else 4) ∧ (3 : Nat) < (if false then 64 else 4) ∧ (254 : Nat) < 255 ∧ (3 : Nat) < 4 := by
  decide

theorem witness_elements : let s := runsEntry rawRun
    let e := s.chainEng 0 63 []
    (okOf (s.engRead e (0x10000 + BitVec.ofNat 64 31) 1)).isSome = true ∧ (okOf (s.engRead e 0x10100 2)).isSome = true
    ∧ dFmt (vector 3 0x10000) = 3 ∧ dFmt (vector 4 0x10000) = 4 ∧ dFmt (vector 0 0x10000) = 0
    ∧ (okOf (s.engRead e (BitVec.ofInt 64 ((0x10000 : Int) + Claim.strides (vector 0 0x10000) [2] 0)) 4)).isSome = true := by
  decide +kernel

/-- ADMIT of a stream whose records pass the checks admits it. -/
theorem admits {s : State} {x : List Word × List Word} (h0 : (s.stream 63).state = 0) (h1 : (s.stream 63).srec = 65536#64)
    (h : checked s = some x) : ((s.admitCmd 63).stream 63).state = 1 := by
  cases hc : s.admitChecks 63 65536#64 with
  | mk c r =>
    cases r with
    | error e => simp [checked, hc] at h
    | ok y => simp [State.admitCmd, h0, h1, hc, State.admitStream]

theorem witness_capacity : (∀ p ∈ (recorded 0).streams, p.2.state ≠ 0 → 0 < bits (wordAt p.2.rec' 3) 31 0)
    ∧ ∃ t, exec (.streamAdmit 63) (recorded 0) = .next t ∧ (t.stream 63).state = 1 :=
  ⟨by decide +kernel, _, rfl, admits (s := recorded 0) (x := (streamRecord 0, shown)) (by decide +kernel) (by decide +kernel)
    (by decide +kernel)⟩

/-- Where a word is about to be fetched after reset. -/
def placed : State := State.reset.withFetchWord 32 0x02930006

theorem witness_step : ∃ g, Claim.Next placed 192 0 [] ∧ tget placed.groups 0 = some g ∧ g.core = 0 ∧ placed.askable 0 g = true
    ∧ g.from' ≤ placed.clk ∧ placed.spentTeam g = none ∧ (placed.core 0).holder = none ∧ (placed.core 0).rotation = [0] := by
  refine ⟨grp placed, ⟨?_, ?_, ?_, ?_, ?_, ?_, ?_, ?_, ?_, ?_⟩, ?_⟩ <;> decide +kernel

/-- The translation of the word's address. -/
def fetched (s : State) : State × Tr :=
  s.translateTlb 0 .fetch 0 0x1000 { read := false, write := false, exec := true, eng := false }

theorem witness_word : placed.noCode 0 0x1000 = false ∧ (fetched placed).1.deadRange 0x1000 4 = false
    ∧ (∀ f ∈ (fetched placed).1.flaws, 8 * f.1 + 8 ≤ 0x1000 ∨ 0x1000 + 4 ≤ 8 * f.1)
    ∧ ((grp placed).threads.head?.bind placed.teamOf).isSome = true
    ∧ (decode ((fetched placed).1.readLoc 0x1000 4)).toOption = some (.iadd 2 0x13 0 1 2, [])
    ∧ (match (fetched placed).2 with | .ok p _ _ _ => decide (p = 0x1000) | _ => false) = true := by decide +kernel

/-- The same word without a guard, whose second source is pending. -/
def placedWaiting : State :=
  (State.reset.withFetchWord 32 0x02130006).updThread 0 fun th => { th with q := th.q.set 1 (.pend 5) }

theorem witness_waiting :
    let x := nextOf (exec (.iadd 0 0x13 0 1 2) { (fetched placedWaiting).1.touchBanks 0x1000 4 with issuing := some 0, stalled := false })
    x.stalled = true ∧ { x with clusters := placedWaiting.clusters, stalled := placedWaiting.stalled,
                                scored := placedWaiting.scored, issuing := placedWaiting.issuing } = placedWaiting := by
  decide +kernel

/-- The deque units' turn, with a post that has come and with none. -/
theorem witness_deque_turn : (∀ s ∈ [posted lone, lone], let t : State := { s with todo := [dequeTurn], issuing := none }
      t.agenda = [] ∧ t.package.booted = true ∧ t.ctlTurn = none)
    ∧ (posted lone).dequeEvent = some (.remotePost 0) ∧ lone.dequeEvent = none := by decide +kernel

theorem witness_memory : memWf State.reset.mem = true ∧ memWf placed.mem = true ∧ outcomeRuns (step placed) = true := by
  decide +kernel

theorem witness_control_step : let s := (ctl 1 2).updCtl 3 fun c => { c with code := [(c.pc.toNat, 0x0005850B#32)] }
    s.agenda = [] ∧ s.package.booted = true ∧ s.package.halted = false
    ∧ (tget (s.ctlCore 3).code (s.ctlCore 3).pc.toNat).bind decodeControl = some (.cxRfetch 11 10)
    ∧ ({ lone with todo := [], issuing := none } : State).ctlTurn = none := by decide +kernel

theorem witness_round_trip : (Instr.iadd 7 0x2F 0x5C 0x5C 2).wellFormed = true ∧ encode (.iadd 7 0x2F 0x5C 0x5C 2) ≠ none
    ∧ decodeTableWord 32 0x02930006 = some (.iadd 2 0x13 0 1 2) ∧ decodeControl 0x0005850B#32 = some (.cxRfetch 11 10) := by
  decide +kernel

/-- A value of each format, and 1/3, √2 and 1/√2 to the format; a negative value has no root. -/
theorem witness_functions : (∀ f ∈ [f32, f64, f16, bf16], ∃ s m e, f.decode f.oneBits = .fin s m e ∧ m ≠ 0)
    ∧ (Fn.rcp.apply f32 0 0x40400000 = 0x3EAAAAAB ∧ Fn.rcp.apply f32 1 0x40400000 = 0x3EAAAAAA)
    ∧ (Fn.sqrt.apply f32 0 0x40000000 = 0x3FB504F3 ∧ Fn.rsq.apply f32 0 0x40000000 = 0x3F3504F3)
    ∧ Fn.sqrt.apply f32 0 0xC0000000 = f32.nanBits := by
  refine ⟨?_, ?_⟩
  · simp only [List.mem_cons, List.not_mem_nil, or_false, forall_eq_or_imp, forall_eq]
    exact ⟨⟨false, 2 ^ 23, -23, by decide +kernel⟩, ⟨false, 2 ^ 52, -52, by decide +kernel⟩, ⟨false, 2 ^ 10, -10, by decide +kernel⟩,
      ⟨false, 2 ^ 7, -7, by decide +kernel⟩⟩
  · decide +kernel

/-- 1.0 as an operand of a sum, and NaN; 1.0 with a low part. -/
theorem witness_sum_operands : (∀ b ∈ [false, true], let x := opnd b (f32.decode 0x3F800000)
      (∀ p ∈ Claim.pairs b [x] [x], (match p with | (.fin _ _ e, .fin _ _ d) => decide ((-1000 : Int) ≤ e + d) | _ => false) = true)
      ∧ x.full.special = false ∧ accStep b 0 [x] [x] = some 0x3F800000)
    ∧ (f32.decode 0x7FC00000).mul (f32.decode 0x3F800000) = .nan
    ∧ f32.decode 0x3F801234 = .fin false 0x801234 (-23) := by decide +kernel

/-! ### Results that the spec writes out -/

/-- q0 = `a` and q1 = `b`, after hint words. -/
def hinted (ws : List IWord) (a b : Word) : State :=
  (with3 a b 0).updGroup 0 fun g => { g with run := ws, runPc := 0xFF0 }

/-- R56: `iadd.z32.sat` of 9 and −7, and without `.sat`; with 5 in place of 9; `isub.z32.sat` of 5 and 7. -/
theorem test_iadd_sat : q0 (exec (.iadd 0 0 0 1 1) (hinted [0xFE480000#32] 9 0xFFFFFFF9)) = .known 0xFFFFFFFF
    ∧ q0 (exec (.iadd 0 0 0 1 1) (hinted [] 9 0xFFFFFFF9)) = .known 2
    ∧ q0 (exec (.iadd 0 0 0 1 1) (hinted [0xFE480000#32] 5 0xFFFFFFF9)) = .known 0xFFFFFFFE := by decide +kernel

theorem test_isub_sat : q0 (exec (.isub 0 0 0 1 1) (hinted [0xFE480000#32] 5 7)) = .known 0 := by decide +kernel

/-- The worked example of R14: line 1, then line 3 for the on thread and for the off thread. -/
theorem test_guarded_add : q0 (exec (.movi 0 0 5) lone) = .known 5 ∧ q0 (exec (.iadd 0 0 0 1 2) (with3 7 5 0)) = .known 12
    ∧ q0 (exec (.iadd 1 0 0 1 2) (with3 7 5 0)) = .known 7 := by decide +kernel

/-- R94: 2^40 to s32, and with `.sat`; −1 to z32; 2.5 to s32 under `.rn`. -/
theorem test_cvt : q0 (exec (.cvt 0 0 0 0 2) (hinted [] 0x10000000000 0)) = .known 0
    ∧ q0 (exec (.cvt 0 0 0 0 2) (hinted [0xFE480000#32] 0x10000000000 0)) = .known 0x7FFFFFFF
    ∧ q0 (exec (.cvt 0 0 0 1 0) (hinted [] 0xFFFFFFFF 0)) = .known 0xFFFFFFFF
    ∧ q0 (exec (.cvt 0 0 0 0 6) (hinted [] 0x40200000 0)) = .known 2 := by decide +kernel

/-- R94: 2.5 to s32 under `.rp`. -/
theorem test_cvt_up : q0 (exec (.cvt 0 0 0 0 6) (hinted [0xFE600000#32] 0x40200000 0)) = .known 3 := by decide +kernel

/-- R319: `mort` of the pair of 0.25 (high) and 0.5 (low), and 0.0. -/
theorem test_mort : q0 (exec (.mort 0 0 0 1) (with3 0x3E8000003F000000 0 0)) = .known 0x22000000 := by decide +kernel

/-- R319: `bbu` leaves the other operand of an empty interval. -/
theorem test_bbu : q0 (exec (.bbu 0 0 0 1) (with3 0xFF8000007F800000 0x3F8000003E800000 0)) = .known 0x3F8000003E800000 := by decide +kernel

/-- R46: the wide constant of the worked example, with `.sat`. -/
theorem test_wide_constant :
    q0 (exec (.iadd 0 0 0 0x5B 2) (hinted [0xFE000048#32, 0xFE345678#32, 0xFE480000#32] 0 0)) = .known 0x12345678 := by decide +kernel

/-- R88: `plop p2, p1, p0, 0x3` sets p2 to NOT p1. -/
theorem test_plop : ((thr (nextOf (exec (.plop 0 2 1 0 3) lone))).preds).getLsbD 2 = true := by decide +kernel

/-- R72: one step of `ffma.f32` from 2^24 with 1.0 × 1.0 is a tie, and rounds to the even 2^24. -/
theorem test_ffma_tie : q0 (exec (.ffma 0 0 1 2 0) (with3 0x3F800000 0x3F800000 0x4B800000)) = .known 0x4B800000 := by decide +kernel

end Sys2Proof.Tests
end

section
/-! Words that wait at issue for a pending source (R150), and the two statements on operands that leave that wait out. -/

namespace Sys2Proof.Machine

/-- R150: what keeps the word of a thread alone from issuing, in the terms of `Claim.Issues`. -/
theorem Alone.notIssuable_eq {f : Form} {s : State} {gid : Nat} {g : Group} {sid : Nat} {th : Thread} {tm : Team}
    (h : Alone s gid g sid th tm) :
    f.notIssuable (s.asSeen gid g) g sid = (th.guard f.guard && f.waitsFor s sid (seen s gid g th) tm g.run) := by
  have heq := State.asSeen_eq s gid g
  have hth := State.asSeen_thread (gid := gid) h.only h.thread
  have htm : (s.asSeen gid g).teamOf sid = some tm := by
    unfold State.teamOf; rw [hth, Option.bind_some, seen_team, heq]; exact h.team
  have hmem : (s.asSeen gid g).mem = s.mem := by rw [heq]
  simp only [Form.notIssuable, hth, htm, seen_guard, Form.waitsFor, State.readSrcs_congr hmem]

/-- R150: the word of a thread alone that is not issuable stays at the issue slot, and only its wait is noted. -/
theorem Form.run_waiting {f : Form} {act : Lane → State → LaneOut} {s : State} {gid : Nat} {g : Group} {sid : Nat}
    {th : Thread} {tm : Team} (h : Alone s gid g sid th tm) (hon : th.guard f.guard = true)
    (hw : f.waitsFor s sid (seen s gid g th) tm g.run = true) :
    f.run act s = .next { s with stalled := true, scored := true } := by
  have hni : f.notIssuable (s.asSeen gid g) g sid = true := by rw [h.notIssuable_eq, hon, hw]; rfl
  have hany : g.threads.any (f.notIssuable (s.asSeen gid g) g) = true := by rw [h.only, List.any_cons, hni]; rfl
  have hs0 : (if (decide ((s.core g.core).lastGroup = some gid) || false) = true then s else s.dropLatches g.threads)
      = s.asSeen gid g := by simp [State.asSeen]
  unfold Form.run
  simp only [h.issuing, h.group, h.whole, Option.isSome_none, Option.isNone_none, hs0, hany, Bool.and_self, if_true]

/-- A word that waits at issue takes no exception: its group goes on, where a fault of the group's one thread ends it. -/
theorem not_faulted_of_waiting {i : Instr} {f : Form} {act : Lane → State → LaneOut} {s : State} {gid : Nat} {g : Group}
    {sid : Nat} {th : Thread} {tm : Team} {e : FaultInfo} (hx : ∀ s, exec i s = f.run act s) (h : Alone s gid g sid th tm)
    (hon : th.guard f.guard = true) (hw : f.waitsFor s sid (seen s gid g th) tm g.run = true) :
    ¬ ∃ t, exec i s = .next t ∧ Faulted s t gid g sid th tm e := by
  rintro ⟨t, ht, hf⟩
  rw [hx, Form.run_waiting h hon hw] at ht
  cases ht
  have hgone : tget s.groups gid = none := hf.stopped.group
  rw [h.group] at hgone
  cases hgone

/-- A form whose first source is a pending entry of the result queue waits for it, unless it takes that source pending. -/
theorem Form.waitsFor_of_pending_head {f : Form} {p : Nat} {x : BitVec 7} {r : List (Nat × BitVec 7)} {k : Nat}
    {th : Thread} (hf : f.srcs = (p, x) :: r) (hraw : 0 ∉ f.raw) (hx : x.toNat < 0x10)
    (hq : vget th.q x.toNat (.known 0) = .pend k) (s : State) (sid : Nat) (t : Team) (run : List IWord) :
    f.waitsFor s sid th t run = true := by
  have hw : selW x = none := by unfold selW; rw [if_neg (by omega)]
  have hv : selV x = none := by unfold selV; rw [if_neg (by omega)]
  have hdead : th.selDead x = false := by
    have h58 : (x.toNat == 0x58) = false := by simp; omega
    have h59 : (x.toNat == 0x59) = false := by simp; omega
    simp [Thread.selDead, hv, h58, h59]
  have hread : s.readSel sid th t (runHimm run) 0 x = .pend k := by
    unfold State.readSel; rw [if_pos hx, hq]
  simp [Form.waitsFor, hf, State.readSrcs, hw, hread, Val.isPend, hdead, hraw]

/-- A launched thread (log 61) with its word at the issue slot, whose q0 is the result of a load that has not come. -/
def awaitingQ0 : State :=
  { (State.reset.withThread.updThread 0 fun th => { th with q := th.q.set 0 (.pend 5) }) with issuing := some 0 }

/-- The state meets what the statements ask where an operand is reserved. -/
theorem awaitingQ0_spec : ∃ g th tm, Alone awaitingQ0 0 g 0 th tm ∧ tm.frozen = false ∧ runFault tm.hdr g.run = none
    ∧ th.guard 0 = true ∧ g.window = none ∧ runPart g.run 1 = none ∧ 0 < tm.hdr.ver
    ∧ vget (seen awaitingQ0 0 g th).q 0 (.known 0) = .pend 5 := by
  refine ⟨_, _, _, ⟨rfl, rfl, rfl, rfl, rfl, rfl, rfl⟩, rfl, rfl, rfl, rfl, rfl, ?_, ?_⟩
  · decide
  · rfl

/-- Refutes O52: its clause on reserved selectors leaves out that the word can issue (R150). `iadd` of q0 and selector 0x5D
waits while q0 is pending, and raises no ILLEGAL_OPERAND. -/
theorem not_selectorsReadTheirSources : ¬ Obligations.SelectorsReadTheirSources := by
  intro h
  obtain ⟨g, th, tm, ha, hfr, hrun, hon, hwin, hmod, hver, hq⟩ := awaitingQ0_spec
  obtain ⟨-, -, -, -, -, -, -, -, -, -, -, -, hreserved⟩ := h 0 0x5D 0 0 0 awaitingQ0 0 g 0 th tm
  obtain ⟨_, -, -, hadd⟩ := hreserved (by decide) ha hfr hrun hon hwin hmod hver
  exact not_faulted_of_waiting (f := Claim.formR 0 2 0 0x5D (Claim.intMods 2 true)) (fun _ => rfl) ha hon
    (Form.waitsFor_of_pending_head rfl List.not_mem_nil (by decide) hq awaitingQ0 0 tm g.run) hadd

/-- Refutes O53: its clause on reserved codes leaves out that the word can issue (R150). `mov` of q0 to code 0x03 waits
while q0 is pending, and raises no ILLEGAL_OPERAND. -/
theorem not_destinationsTakeValues : ¬ Obligations.DestinationsTakeValues := by
  intro h
  obtain ⟨g, th, tm, ha, hfr, hrun, hon, hwin, hmod, hver, hq⟩ := awaitingQ0_spec
  have hmov := (h 0 3 0 awaitingQ0 0 g 0 th tm).2 (by decide) (by decide) ha hfr hrun hon hwin hmod hver
  exact not_faulted_of_waiting (f := Claim.formU 0 3 0 0) (fun _ => rfl) ha hon
    (Form.waitsFor_of_pending_head rfl List.not_mem_nil (by decide) hq awaitingQ0 0 tm g.run) hmov

end Sys2Proof.Machine
end

section
/-! Values that a format holds survive encoding in every rounding mode (R57, R59), and the DXB values among them (R64, R66). -/

namespace Sys2Proof.Machine

/-! ### The fields of a pattern (R57) -/

theorem FFmt.magBits_withSign (f : FFmt) (neg : Bool) {b : Nat} (hb : b < 2 ^ (f.eb + f.fb)) :
    f.magBits (f.withSign neg b) = b := by
  cases neg
  · exact Nat.mod_eq_of_lt hb
  · exact (Nat.add_mod_right ..).trans (Nat.mod_eq_of_lt hb)

theorem FFmt.sign_withSign (f : FFmt) (neg : Bool) {b : Nat} (hb : b < 2 ^ (f.eb + f.fb)) :
    f.sign (f.withSign neg b) = neg := by
  cases neg
  · rw [FFmt.sign, FFmt.withSign, if_neg Bool.false_ne_true, Nat.add_zero, Nat.div_eq_of_lt hb]
    rfl
  · rw [FFmt.sign, FFmt.withSign, if_pos rfl, Nat.add_div_right _ (Nat.two_pow_pos _), Nat.div_eq_of_lt hb]
    rfl

theorem FFmt.infBits_lt (f : FFmt) : f.infBits < 2 ^ (f.eb + f.fb) := by
  rw [Nat.pow_add]
  exact Nat.mul_lt_mul_of_pos_right (Nat.sub_lt (Nat.two_pow_pos _) Nat.one_pos) (Nat.two_pow_pos _)

/-- A finite pattern of significand `m`, `k` binades above the lowest, where only the lowest has a significand without its
leading bit. -/
theorem FFmt.decode_withSign (f : FFmt) (neg : Bool) {k m : Nat} (hm : m < 2 * 2 ^ f.fb) (hk : k ≠ 0 → 2 ^ f.fb ≤ m)
    (hfin : k * 2 ^ f.fb + m < f.infBits) :
    f.decode (f.withSign neg (k * 2 ^ f.fb + m)) = .fin neg m (f.emin - f.fb + k) := by
  have hb := Nat.lt_trans hfin f.infBits_lt
  have hpos : 0 < 2 ^ f.fb := Nat.two_pow_pos _
  simp only [FFmt.decode, f.sign_withSign neg hb, f.magBits_withSign neg hb, if_neg (Nat.lt_asymm hfin),
    if_neg (Nat.ne_of_lt hfin)]
  by_cases hsub : m < 2 ^ f.fb
  · obtain rfl : k = 0 := Decidable.of_not_not fun h => Nat.not_le.mpr hsub (hk h)
    rw [Nat.zero_mul, Nat.zero_add, Nat.div_eq_of_lt hsub, if_pos rfl, Int.natCast_zero, Int.add_zero]
  · obtain ⟨r, rfl⟩ := Nat.exists_eq_add_of_le (Nat.not_lt.mp hsub)
    have hr : r < 2 ^ f.fb := by omega
    have hsplit : k * 2 ^ f.fb + (2 ^ f.fb + r) = r + 2 ^ f.fb * (k + 1) := by
      rw [Nat.mul_add_one, Nat.mul_comm k]; omega
    have hdiv : (r + 2 ^ f.fb * (k + 1)) / 2 ^ f.fb = k + 1 := by
      rw [Nat.add_mul_div_left _ _ hpos, Nat.div_eq_of_lt hr, Nat.zero_add]
    rw [hsplit, hdiv, Nat.add_mul_mod_self_left, Nat.mod_eq_of_lt hr, if_neg k.succ_ne_zero]
    congr 1
    · exact Nat.add_comm ..
    · omega

/-! ### Rounding what needs no rounding (R59) -/

theorem roundTo_exact (rnd : Nat) (neg : Bool) (mag : Nat) {exp q : Int} (h : q ≤ exp) :
    roundTo rnd neg mag exp q false = mag * 2 ^ (exp - q).toNat := by
  have hup : ∀ x, roundsUp rnd neg x 0 1 false = false := fun x => by
    unfold roundsUp
    split <;> simp
  rw [roundTo, if_pos h, hup, if_neg Bool.false_ne_true, Nat.add_zero]

/-- A magnitude is held exactly: its bits fit the significand, and its exponent is neither below the format's smallest
unit nor above its largest binade. -/
def FFmt.Holds (f : FFmt) (mag : Nat) (exp : Int) : Prop :=
  mag < 2 * 2 ^ f.fb ∧ f.emin - f.fb ≤ exp ∧ exp + (Nat.log2 mag : Nat) ≤ f.bias

theorem log2_le_of_lt_two_mul {m n : Nat} (h : m < 2 * 2 ^ n) : m.log2 ≤ n := by
  by_cases hne : m = 0
  · rw [hne, Nat.log2_zero]
    exact Nat.zero_le n
  · exact Nat.lt_succ_iff.mp ((Nat.log2_lt hne).mpr (by rwa [Nat.pow_succ']))

/-- The exponent of the last place of a magnitude's pattern. -/
def FFmt.lastPlace (f : FFmt) (mag : Nat) (exp : Int) : Int := max (exp + (Nat.log2 mag : Nat)) f.emin - f.fb

theorem FFmt.Holds.lastPlace_le {f : FFmt} {mag : Nat} {exp : Int} (h : f.Holds mag exp) : f.lastPlace mag exp ≤ exp := by
  obtain ⟨hmag, hlow, -⟩ := h
  have hlog := log2_le_of_lt_two_mul hmag
  unfold FFmt.lastPlace
  omega

/-- The binade of a magnitude, counted from the format's lowest. -/
def FFmt.binade (f : FFmt) (mag : Nat) (exp : Int) : Nat := (max (exp + (Nat.log2 mag : Nat)) f.emin - f.emin).toNat

theorem FFmt.emin_add_binade (f : FFmt) (mag : Nat) (exp : Int) :
    f.emin - f.fb + f.binade mag exp = f.lastPlace mag exp := by
  unfold FFmt.binade FFmt.lastPlace
  omega

/-- In units of its last place, a held magnitude is a significand, with its leading bit above the lowest binade. -/
theorem FFmt.Holds.significand {f : FFmt} {mag : Nat} {exp : Int} (h : f.Holds mag exp) (hne : mag ≠ 0) :
    mag * 2 ^ (exp - f.lastPlace mag exp).toNat < 2 * 2 ^ f.fb
    ∧ (f.binade mag exp ≠ 0 → 2 ^ f.fb ≤ mag * 2 ^ (exp - f.lastPlace mag exp).toNat) := by
  have hle := h.lastPlace_le
  generalize hj : (exp - f.lastPlace mag exp).toNat = j
  unfold FFmt.lastPlace at hle hj
  have hup : mag < 2 ^ (mag.log2 + 1) := Nat.lt_log2_self
  have hlo : 2 ^ mag.log2 ≤ mag := Nat.log2_self_le hne
  constructor
  · calc mag * 2 ^ j < 2 ^ (mag.log2 + 1) * 2 ^ j := Nat.mul_lt_mul_of_pos_right hup (Nat.two_pow_pos j)
      _ = 2 ^ (mag.log2 + 1 + j) := (Nat.pow_add ..).symm
      _ ≤ 2 ^ (f.fb + 1) := Nat.pow_le_pow_right Nat.two_pos (by omega)
      _ = 2 * 2 ^ f.fb := Nat.pow_succ'
  · intro hk
    unfold FFmt.binade at hk
    calc 2 ^ f.fb = 2 ^ (mag.log2 + j) := by congr 1; omega
      _ = 2 ^ mag.log2 * 2 ^ j := Nat.pow_add ..
      _ ≤ mag * 2 ^ j := Nat.mul_le_mul_right _ hlo

/-- A held magnitude's pattern is below that of infinity. -/
theorem FFmt.Holds.lt_infBits {f : FFmt} {mag : Nat} {exp : Int} (h : f.Holds mag exp) (hne : mag ≠ 0) (heb : 1 < f.eb) :
    f.binade mag exp * 2 ^ f.fb + mag * 2 ^ (exp - f.lastPlace mag exp).toNat < f.infBits := by
  obtain ⟨hm, -⟩ := h.significand hne
  obtain ⟨-, -, htop⟩ := h
  have hk : f.binade mag exp + 2 ≤ 2 ^ f.eb - 1 := by
    obtain ⟨n, hn⟩ := Nat.exists_eq_add_of_le heb
    have hpos : 0 < 2 ^ n := Nat.two_pow_pos n
    have hbias : f.bias = 2 * (2 ^ n : Nat) - 1 := by
      rw [FFmt.bias, hn, show 2 + n - 1 = n + 1 by omega, Int.pow_succ', Int.natCast_pow]
      rfl
    have hpow : 2 ^ f.eb = 4 * 2 ^ n := by rw [hn]; exact Nat.pow_add ..
    unfold FFmt.binade FFmt.emin
    omega
  calc _ < (f.binade mag exp + 2) * 2 ^ f.fb := by
        rw [Nat.add_mul]; exact Nat.add_lt_add_left hm _
    _ ≤ f.infBits := Nat.mul_le_mul_right _ hk

/-- A held magnitude has a pattern that decodes to it, in units of its last place, whatever the rounding mode. -/
theorem FFmt.decode_round (f : FFmt) (heb : 1 < f.eb) (rnd : Nat) (neg : Bool) {mag : Nat} {exp : Int} (hne : mag ≠ 0)
    (h : f.Holds mag exp) : f.decode (f.round rnd neg mag exp false)
      = .fin neg (mag * 2 ^ (exp - f.lastPlace mag exp).toNat) (f.lastPlace mag exp) := by
  have hfin := h.lt_infBits hne heb
  obtain ⟨hm, hk⟩ := h.significand hne
  have hround : f.round rnd neg mag exp false
      = f.withSign neg (f.binade mag exp * 2 ^ f.fb + mag * 2 ^ (exp - f.lastPlace mag exp).toNat) := by
    rw [← roundTo_exact rnd neg mag h.lastPlace_le] at hfin ⊢
    rw [FFmt.round, if_neg (fun hz => hne hz.1)]
    exact if_neg (Nat.not_le.mpr hfin)
  rw [hround, f.decode_withSign neg hm hk hfin, f.emin_add_binade]

/-! ### The exact value kept -/

theorem two_ne_zero_rat : (2 : Rat) ≠ 0 := by decide

theorem rat_shift (neg : Bool) (m n : Nat) (e : Int) : Claim.rat (.fin neg (m * 2 ^ n) e) = Claim.rat (.fin neg m (e + n)) := by
  have hcast : ((m * 2 ^ n : Nat) : Rat) = (m : Rat) * (2 : Rat) ^ n := by
    rw [Rat.natCast_mul, Rat.natCast_pow, Rat.natCast_ofNat]
  rw [Claim.rat, Claim.rat, hcast, Rat.zpow_add two_ne_zero_rat, Rat.zpow_natCast, Rat.mul_comm (2 ^ e), ← Rat.mul_assoc,
    ← Rat.mul_assoc]

theorem rat_zero (neg : Bool) (e : Int) : Claim.rat (.fin neg 0 e) = some 0 := by
  have hcast : ((0 : Nat) : Rat) = 0 := rfl
  rw [Claim.rat, hcast, Rat.mul_zero, Rat.zero_mul]

/-- Encoding a held magnitude keeps its value. -/
theorem FFmt.rat_decode_encode (f : FFmt) (heb : 1 < f.eb) (rnd : Nat) (neg : Bool) {mag : Nat} {exp : Int}
    (h : f.Holds mag exp) : Claim.rat (f.decode (f.encode rnd (.fin neg mag exp))) = Claim.rat (.fin neg mag exp) := by
  by_cases hz : mag = 0
  · subst hz
    have hpos : 0 < f.infBits :=
      Nat.mul_pos (Nat.sub_pos_of_lt (Nat.one_lt_two_pow (Nat.ne_zero_of_lt heb))) (Nat.two_pow_pos _)
    have hzero := f.decode_withSign neg (k := 0) (m := 0) (Nat.mul_pos Nat.two_pos (Nat.two_pow_pos _))
      (fun h => absurd rfl h) (by rwa [Nat.zero_mul])
    rw [Nat.zero_mul] at hzero
    rw [FFmt.encode, FFmt.round, if_pos ⟨rfl, rfl⟩, hzero, rat_zero, rat_zero]
  · rw [FFmt.encode, f.decode_round heb rnd neg hz h, rat_shift]
    have := h.lastPlace_le
    congr 2
    omega

/-! ### DXB elements (R64) -/

/-- The sign, selector and magnitude of an element are its fields. -/
theorem dxbValue_fields (eight : Bool) {sg sel m ea eb : Nat} (hsg : sg < 2) (hsel : sel < 2) (hm : m < dxbMax eight + 1)
    (ha : ea ≠ 255) (hb : eb ≠ 255) :
    dxbValue eight (sg * (2 * (dxbMax eight + 1)) + sel * (dxbMax eight + 1) + m) ea eb
      = .fin (sg == 1) m ((if sel = 0 then ea else eb : Nat) - 127 - dxbShift eight) := by
  have hn : 0 < dxbMax eight + 1 := Nat.succ_pos _
  simp only [dxbValue, if_neg (not_or.mpr ⟨ha, hb⟩)]
  generalize dxbMax eight + 1 = n at hm hn ⊢
  have hel : sg * (2 * n) + sel * n + m = m + n * (sel + 2 * sg) := by
    rw [Nat.mul_add, Nat.mul_comm n sel, Nat.mul_left_comm n, Nat.mul_left_comm sg, Nat.mul_comm sg]; omega
  have hquot : (m + n * (sel + 2 * sg)) / n = sel + 2 * sg := by
    rw [Nat.add_mul_div_left _ _ hn, Nat.div_eq_of_lt hm, Nat.zero_add]
  have hsign : (m + n * (sel + 2 * sg)) / (2 * n) = sg := by
    rw [Nat.mul_comm 2 n, ← Nat.div_div_eq_div_mul, hquot]; omega
  have hselq : (sel + 2 * sg) % 2 = sel := by omega
  rw [hel, hquot, hsign, hselq, Nat.add_mul_mod_self_left, Nat.mod_eq_of_lt hm, Nat.mod_eq_of_lt hsg]

theorem dxbValue_nan (eight : Bool) (el : Nat) {ea eb : Nat} (h : ea = 255 ∨ eb = 255) : dxbValue eight el ea eb = .nan :=
  if_pos h

theorem dxbMax_succ (eight : Bool) : dxbMax eight + 1 = if eight then 64 else 4 := by cases eight <;> rfl

/-- R66: a format with the exponents of FP32 and at least six fraction bits holds every magnitude of the table. -/
theorem holds_dxb (eight : Bool) {f : FFmt} (heb : f.eb = 8) (hfb : 6 ≤ f.fb) {m E : Nat} (hm : m < dxbMax eight + 1)
    (hE : E < 255) : f.Holds m ((E : Int) - 127 - dxbShift eight) := by
  obtain ⟨n, hn, hmax, hshift⟩ : ∃ n ≤ 5, dxbMax eight + 1 = 2 * 2 ^ n ∧ dxbShift eight = (n : Nat) := by
    cases eight
    · exact ⟨1, by decide, rfl, rfl⟩
    · exact ⟨5, by decide, rfl, rfl⟩
  rw [hmax] at hm
  have hlog := log2_le_of_lt_two_mul hm
  have hbias : f.bias = 127 := by rw [FFmt.bias, heb]; rfl
  have hfit : 2 ^ n ≤ 2 ^ f.fb := Nat.pow_le_pow_right Nat.two_pos (by omega)
  exact ⟨by omega, by rw [FFmt.emin]; omega, by omega⟩

/-- The value of an element as R64's table writes it, a part m/d of the exponent's power of two. -/
theorem rat_fin_dxb (eight neg : Bool) (m E : Nat) :
    Claim.rat (.fin neg m ((E : Int) - 127 - dxbShift eight))
      = some ((if neg then -1 else 1) * ((m : Rat) / (if eight then 32 else 2)) * (2 : Rat) ^ ((E : Int) - 127)) := by
  have hd : (2 : Rat) ^ dxbShift eight = if eight then 32 else 2 := by cases eight <;> rfl
  have hne : (if eight then 32 else 2 : Rat) ≠ 0 := by cases eight <;> decide
  have hsplit : (2 : Rat) ^ ((E : Int) - 127) = 2 ^ ((E : Int) - 127 - dxbShift eight) * (if eight then 32 else 2) := by
    rw [← hd, ← Rat.zpow_add two_ne_zero_rat, Int.sub_add_cancel]
  rw [Claim.rat, hsplit, Rat.mul_comm (2 ^ _) (if eight then 32 else 2), ← Rat.mul_assoc, Rat.mul_assoc _ (_ / _),
    Rat.div_mul_cancel hne]

theorem two_zpow_le {a b : Int} (h : a ≤ b) : (2 : Rat) ^ a ≤ 2 ^ b := by
  obtain ⟨n, rfl⟩ := Int.le.dest h
  have hone : (1 : Rat) ≤ 2 ^ n := by
    have := Rat.natCast_le_natCast.mpr (Nat.two_pow_pos n)
    rwa [Rat.natCast_pow] at this
  have := Rat.mul_le_mul_of_nonneg_left hone (Rat.zpow_nonneg (n := a) (show (0 : Rat) ≤ 2 by decide))
  rwa [Rat.mul_one, ← Rat.zpow_natCast, ← Rat.zpow_add two_ne_zero_rat] at this

theorem mul_le_mul_rat {a b c d : Rat} (hab : a ≤ b) (hcd : c ≤ d) (hb : 0 ≤ b) (hc : 0 ≤ c) : a * c ≤ b * d :=
  Rat.le_trans (Rat.mul_le_mul_of_nonneg_right hab hc) (Rat.mul_le_mul_of_nonneg_left hcd hb)

/-- A magnitude other than zero over the format's divisor. -/
theorem dxb_part_bounds (eight : Bool) {m : Nat} (hm : m < dxbMax eight + 1) (hne : m ≠ 0) :
    1 / 32 ≤ (m : Rat) / (if eight then 32 else 2) ∧ (m : Rat) / (if eight then 32 else 2) ≤ 63 / 32 := by
  have hlow : (1 : Rat) ≤ m := Rat.natCast_le_natCast.mpr (Nat.one_le_iff_ne_zero.mpr hne)
  have hhigh : (m : Rat) ≤ dxbMax eight := Rat.natCast_le_natCast.mpr (Nat.lt_succ_iff.mp hm)
  cases eight
  · have hmax : (dxbMax false : Rat) = 3 := rfl
    constructor <;> grind
  · have hmax : (dxbMax true : Rat) = 63 := rfl
    constructor <;> grind

/-- R66: the bounds of a value that is not zero, from those of its part and its exponent. -/
theorem abs_scaled_bounds (p : Prop) [Decidable p] {x : Rat} {E : Nat} (hx : 1 / 32 ≤ x ∧ x ≤ 63 / 32) (hE : E < 255) :
    (2 : Rat) ^ (-132 : Int) ≤ ((if p then -1 else 1) * x * (2 : Rat) ^ ((E : Int) - 127)).abs
    ∧ ((if p then -1 else 1) * x * (2 : Rat) ^ ((E : Int) - 127)).abs ≤ 63 / 32 * (2 : Rat) ^ (127 : Int) := by
  obtain ⟨hlow, hhigh⟩ := hx
  have hElow : (2 : Rat) ^ (-127 : Int) ≤ 2 ^ ((E : Int) - 127) := two_zpow_le (by omega)
  have hEhigh : (2 : Rat) ^ ((E : Int) - 127) ≤ 2 ^ (127 : Int) := two_zpow_le (by omega)
  have hpow : ∀ e : Int, (0 : Rat) ≤ 2 ^ e := fun e => Rat.zpow_nonneg (by decide)
  have hnonneg : 0 ≤ x := Rat.le_trans (by decide +kernel) hlow
  have habs : ((if p then -1 else 1) * x * (2 : Rat) ^ ((E : Int) - 127)).abs = x * 2 ^ ((E : Int) - 127) := by
    rw [Rat.mul_assoc]
    split
    · rw [Rat.neg_mul, Rat.one_mul, Rat.abs_neg, Rat.abs_of_nonneg (Rat.mul_nonneg hnonneg (hpow _))]
    · rw [Rat.one_mul, Rat.abs_of_nonneg (Rat.mul_nonneg hnonneg (hpow _))]
  have hunit : (2 : Rat) ^ (-5 : Int) = 1 / 32 := by decide +kernel
  have hmin : (2 : Rat) ^ (-132 : Int) = 2 ^ (-5 : Int) * 2 ^ (-127 : Int) :=
    (congrArg (fun e : Int => (2 : Rat) ^ e) (by decide : (-132 : Int) = -5 + -127)).trans (Rat.zpow_add two_ne_zero_rat _ _)
  rw [habs, hmin, hunit]
  exact ⟨mul_le_mul_rat hlow hElow hnonneg (hpow _), mul_le_mul_rat hhigh hEhigh (by decide +kernel) (hpow _)⟩

/-- Settles O54: an element's fields give its value by the table, and FP32 and BF16 hold every such value. -/
theorem dxbValuesAreExact : Obligations.DxbValuesAreExact := by
  intro eight sg sel m ea eb rnd f hsg hsel hm _ hf
  have heb : f.eb = 8 := by rcases hf with rfl | rfl <;> rfl
  have hfb : 6 ≤ f.fb := by rcases hf with rfl | rfl <;> decide
  rw [← dxbMax_succ] at hm ⊢
  intro k el
  constructor
  · intro ha hb q
    have hE : (if sel = 0 then ea else eb) < 255 := by split <;> assumption
    have hvalue := dxbValue_fields eight hsg hsel hm (Nat.ne_of_lt ha) (Nat.ne_of_lt hb)
    have hq := rat_fin_dxb eight (sg == 1) m (if sel = 0 then ea else eb)
    simp only [beq_iff_eq] at hq
    refine ⟨by rw [hvalue, hq], ?_, ?_⟩
    · rw [hvalue, f.rat_decode_encode (by omega) rnd _ (holds_dxb eight heb hfb hm hE), hq]
    · by_cases hz : m = 0
      · subst hz
        exact .inl (Option.some.inj (hq.symm.trans (rat_zero ..)))
      · exact .inr (abs_scaled_bounds _ (dxb_part_bounds eight hm hz) hE)
  · intro h
    have hnan := dxbValue_nan eight el h
    refine ⟨hnan, ?_⟩
    rw [hnan]
    exact congrArg (fun n => (2 ^ n - 1) * 2 ^ f.fb + 2 ^ (f.fb - 1)) heb

end Sys2Proof.Machine
end

section
/-! The exception of a check of R44 in a word of a thread alone, and the reads of timelines (R138, R139). -/

namespace Sys2Proof.Machine

/-! ### A check that fails (R44, R110) -/

/-- The lane of a thread alone whose word fails a check takes the exception of that check; its action is not performed. -/
theorem Form.lane_checkFault {f : Form} {act : Lane → State → LaneOut} {s : State} {gid : Nat} {g : Group} {sid : Nat}
    {th : Thread} {tm : Team} {peers : List (Nat × List Word)} {whole : Bool} {e : FaultInfo} (h : Alone s gid g sid th tm)
    (hon : th.guard f.guard = true) (hints : runFault tm.hdr g.run = none)
    (hq : s.queueCheck tm f.pops f.queuePushes 0 ≠ .wait)
    (hc : f.check tm.hdr (seen s gid g th) (s.ctx tm.ctx).priv g.window.isSome g.run = some e) :
    f.lane act gid g peers whole (s.asSeen gid g) (PartIssue.none'.acc (s.asSeen gid g) s) sid =
      { PartIssue.none'.acc (s.asSeen gid g) s with faults := [(sid, e, g.runPc)], left := true } := by
  have hth := State.asSeen_thread (gid := gid) h.only h.thread
  have heq := State.asSeen_eq s gid g
  have htm : tget (s.asSeen gid g).teams th.team = some tm := by rw [heq]; exact h.team
  have hctx : (s.asSeen gid g).ctx tm.ctx = s.ctx tm.ctx := by rw [heq]; rfl
  unfold Form.lane
  simp only [PartIssue.acc, PartIssue.none', hth, seen_cond, seen_team, h.inGroup, ne_eq, not_true_eq_false, if_false, htm,
    hints, seen_guard, hon, Bool.not_true, Bool.false_eq_true, hctx, hc, List.filter_nil, List.length_nil,
    State.asSeen_queueCheck, hq, List.nil_append, Bool.true_and, decide_false]

/-- The run of a word over a thread alone whose word fails a check. -/
theorem Form.run_checkFault {f : Form} {act : Lane → State → LaneOut} {s : State} {gid : Nat} {g : Group} {sid : Nat}
    {th : Thread} {tm : Team} {e : FaultInfo} (h : Alone s gid g sid th tm) (hon : th.guard f.guard = true)
    (hni : f.notIssuable (s.asSeen gid g) g sid = false) (hints : runFault tm.hdr g.run = none)
    (hq : s.queueCheck tm f.pops f.queuePushes 0 ≠ .wait)
    (hc : f.check tm.hdr (seen s gid g th) (s.ctx tm.ctx).priv g.window.isSome g.run = some e) :
    f.run act s = .next { (((f.settle gid g { PartIssue.none'.acc (s.asSeen gid g) s with
      faults := [(sid, e, g.runPc)], left := true }).charge [th.team]).raise sid e g.pc g.runPc) with stalled := false } := by
  have hs0 : (if (decide ((s.core g.core).lastGroup = some gid) || false) = true then s else s.dropLatches g.threads)
      = s.asSeen gid g := by simp [State.asSeen]
  have hany : g.threads.any (f.notIssuable (s.asSeen gid g) g) = false := by rw [h.only, List.any_cons, hni]; rfl
  have hturn : (g.threads.filter fun x => !PartIssue.none'.done.contains x) = [sid] := by simp [h.only, PartIssue.none']
  have hcharge : s.issuers g.threads = [th.team] := by
    simp [State.issuers, h.only, h.thread, List.eraseDups]
    rfl
  unfold Form.run
  simp only [h.issuing, h.group, h.whole, Option.isSome_none, Option.isNone_none, Option.getD_none, hs0, hany, hturn,
    Bool.true_and, Bool.false_eq_true, if_false, List.foldl_cons, List.foldl_nil, Form.lane_checkFault h hon hints hq hc]
  unfold Form.finish
  simp only [PartIssue.acc, PartIssue.none', h.whole, hcharge, State.raiseAll, List.foldl_nil,
    Option.isSome_none, Bool.and_self, Bool.false_eq_true, if_false]
  rfl

/-- Where every check of a form passes, a check put before its operands' decides. -/
theorem Form.check_withPre {f : Form} {pre : Header → Option FaultInfo} {h : Header} {th : Thread} {priv inWindow : Bool}
    {run : List IWord} {e : FaultInfo} (hf : f.check h th priv inWindow run = none) (hp : pre h = some e) :
    ({ f with pre := pre } : Form).check h th priv inWindow run = some e := by
  unfold Form.check at hf ⊢
  dsimp only at hf ⊢
  split at hf
  · cases hf
  next hlegal =>
  split at hf
  · cases hf
  next hpriv =>
  split at hf
  · cases hf
  next hwindow => rw [if_neg hlegal, if_neg hpriv, if_neg hwindow, hp]

/-- A word whose form has a check before its operands' takes the exceptions of that check, where nothing else stops it. -/
theorem faults_of_pre {i : Instr} {f : Form} {pre : Header → Option FaultInfo} {act : Lane → State → LaneOut}
    {eff : Turn → Option FaultInfo} (hx : ∀ s, exec i s = ({ f with pre := pre } : Form).run act s)
    (he : ∀ u e, eff u = some e → pre u.tm.hdr = some e) : Faults i f eff := by
  intro s gid g sid th tm h hf e hu hn hk
  have hq : s.queueCheck tm f.pops f.queuePushes 0 ≠ .wait := by simp [h.queues]
  exact ⟨_, (hx s).trans (Form.run_checkFault h.toAlone h.on h.issuable h.hints hq
    (Form.check_withPre h.legal (he _ _ hu))), fault_spec h.toAlone hf hn hk⟩

/-! ### Timelines of a team (R50, R138, R139) -/

/-- No timeline beyond tl15 is bound. -/
theorem tlBound_of_lt (h : Header) {i : Nat} (hi : 15 < i) : tlBound h i = false := by
  have h2 : ¬ i < 2 := by omega
  have h16 : ¬ i < 16 := by omega
  simp [tlBound, h2, h16]

theorem tlAbsent_of_bound {h : Header} {i : Nat} (hb : tlBound h i = true) : tlAbsent i h = none := if_pos hb

theorem tlAbsent_of_absent {h : Header} {i : Nat} (hi : 15 < i ∨ tlBound h i = false) :
    tlAbsent i h = some (freezeFault 0x02 0 (1 + 4 * i)) := by
  have hb : tlBound h i = false := hi.elim (tlBound_of_lt h) id
  simp [tlAbsent, hb, illegalOperand]

/-- A team's timelines do not depend on its threads. -/
theorem State.teamTimeline_threads (s : State) (x : Tbl Thread) (t : Team) (i : Nat) :
    ({ s with threads := x } : State).teamTimeline t i = s.teamTimeline t i := rfl

theorem exec_tlrd (g : BitVec 3) (d : BitVec 6) (k : BitVec 7) (s : State) :
    exec (.tlrd g d k) s = execTlrd g d k s := rfl

/-- Settles O14: a bound timeline's counter is the one value that the word writes, and the check of its index, which comes
before every check of an operand, raises the exception of an index that is absent. -/
theorem timelineReadPushesTheCounter : Obligations.TimelineReadPushesTheCounter := by
  refine ⟨fun g d k => ?_, fun g d k => ?_, fun _ _ => tlAbsent_of_absent, fun _ _ _ => tlAbsent_of_bound, ?_, ?_⟩
  · refine computes_run (exec_tlrd g d k) rfl rfl (fun u l hl => ?_) (fun s x _ _ tm _ _ => s.teamTimeline_threads x tm _)
    rw [hl.team]
  · refine faults_of_pre (exec_tlrd g d k) fun u e he => ?_
    obtain ⟨habsent, hcause⟩ := Option.ite_none_right_eq_some.mp he
    rw [tlAbsent_of_absent habsent, hcause]
  · decide
  · decide

end Sys2Proof.Machine
end

section
/-! Where the elements of a tensor lie (R211, R212), and what an engine that reads one there gets. -/

namespace Sys2Proof.Machine

/-! ### Σ id × STRIDEd (R211) -/

theorem dStride_eq_toInt (d : List Word) (i : Nat) : dStride d i = (d.getD (9 + i) 0).toInt := by
  have hlt : (d.getD (9 + i) 0).toNat < 2 ^ 64 := (d.getD (9 + i) 0).isLt
  rw [dStride, wordAt, sgn, BitVec.toInt_eq_toNat_cond]
  split <;> split <;> omega

/-- The dimensions of an index from `lo` on. -/
theorem range_filter_le (n lo : Nat) : (List.range n).filter (fun k => decide (lo ≤ k)) = List.range' lo (n - lo) := by
  rw [List.range_eq_range']
  by_cases hlo : lo ≤ n
  · have hsplit : List.range' 0 n = List.range' 0 lo ++ List.range' lo (n - lo) := by
      have h := List.range'_append_1 (s := 0) (m := lo) (n := n - lo)
      rwa [Nat.zero_add, Nat.add_sub_cancel' hlo, eq_comm] at h
    have hbelow : (List.range' 0 lo).filter (fun k => decide (lo ≤ k)) = [] := by
      simp only [List.filter_eq_nil_iff, List.mem_range'_1, decide_eq_true_eq]
      omega
    have habove : (List.range' lo (n - lo)).filter (fun k => decide (lo ≤ k)) = List.range' lo (n - lo) := by
      simp only [List.filter_eq_self, List.mem_range'_1, decide_eq_true_eq]
      omega
    rw [hsplit, List.filter_append, hbelow, habove, List.nil_append]
  · rw [Nat.sub_eq_zero_of_le (by omega), List.range'_zero, List.filter_eq_nil_iff]
    simp only [List.mem_range'_1, decide_eq_true_eq]
    omega

/-- What is left of an index contributes the products of its own dimensions. -/
theorem strideSum_drop (d : List Word) (ix : List Nat) (lo : Nat) : strideSum d lo (ix.drop lo)
    = ((List.range' lo (ix.length - lo)).map fun k => (ix.getD k 0 : Int) * (d.getD (9 + k) 0).toInt).sum := by
  induction hn : ix.length - lo generalizing lo with
  | zero => rw [List.drop_eq_nil_of_le (by omega)]; rfl
  | succ n ih =>
    have hlo : lo < ix.length := by omega
    rw [List.drop_eq_getElem_cons hlo, strideSum, ih (lo + 1) (by omega), List.range'_succ, List.map_cons, List.sum_cons,
      dStride_eq_toInt, List.getElem_eq_getD 0]

/-- R211: the sum that the statement writes out is the model's. -/
theorem strides_eq_strideSum (d : List Word) (ix : List Nat) (lo : Nat) :
    Claim.strides d ix lo = strideSum d lo (ix.drop lo) := by
  rw [Claim.strides, ← List.sum_eq_foldl, range_filter_le, strideSum_drop]

/-! ### Addresses (R211, R212) -/

theorem ofInt_toNat_add (w : Word) (z : Int) : BitVec.ofInt 64 (w.toNat + z) = w + wi z := by
  rw [BitVec.ofInt_add, BitVec.ofInt_natCast, BitVec.ofNat_toNat, BitVec.setWidth_eq, wi]

/-- R211: an element of a tensor that is not DXB lies at BASE + Σ id × STRIDEd. -/
theorem elemAddr_eq (d : List Word) (ix : List Nat) :
    elemAddr d ix = BitVec.ofInt 64 ((d.getD 1 0).toNat + Claim.strides d ix 0) := by
  rw [ofInt_toNat_add, strides_eq_strideSum, List.drop_zero]; rfl

theorem dBlock_eq (d : List Word) : dBlock d = if dFmt d = 3 then 32 else 16 := by simp [dBlock, dEight]

/-- R212: P − BASE of an element's block. -/
theorem blockOff_eq (d : List Word) (ix : List Nat) : blockOff d ix
    = Claim.strides d ix 1 + ((ix.headD 0 / 32 * (if dFmt d = 3 then 32 else 16) : Nat) : Int) := by
  rw [blockOff, strides_eq_strideSum, dBlock_eq]

theorem blockAddr_eq (d : List Word) (ix : List Nat) :
    blockAddr d ix = BitVec.ofInt 64 ((d.getD 1 0).toNat + blockOff d ix) := (ofInt_toNat_add ..).symm

/-- R212: the exponent pair lies at SCALE + 2 × (P − BASE) / b. -/
theorem pairAddr_eq (d : List Word) (ix : List Nat) : pairAddr d ix
    = BitVec.ofInt 64 ((d.getD 2 0).toNat + 2 * blockOff d ix / (if dFmt d = 3 then 32 else 16 : Nat)) := by
  rw [ofInt_toNat_add, pairAddr, dBlock_eq]; rfl

/-! ### Reading an element -/

/-- A tensor that is not DXB: the element is its bytes, decoded. -/
theorem State.elemNum_of_engRead {s t : State} {e : Eng} {d : List Word} {ix : List Nat} {bs : List Byte}
    (hd : dDxb d = false) (h : s.engRead e (elemAddr d ix) (fmtBytes (dFmt d)) = (t, .ok bs)) :
    s.elemNum e d ix = (t, .ok ((fmtOf (dFmt d)).decode (leNat bs))) := by
  simp only [State.elemNum, State.elemBits, hd, h, Bool.false_eq_true, if_false]

/-- A DXB tensor: the element's bits lie in one byte of the block, under the two exponents of its pair. -/
theorem State.elemNum_of_engRead_dxb {s t u : State} {e : Eng} {d : List Word} {ix : List Nat} {x p q : Byte}
    (hd : dDxb d = true)
    (hx : s.engRead e (blockAddr d ix + wd (if dEight d then ix.headD 0 % 32 else ix.headD 0 % 32 / 2)) 1 = (t, .ok [x]))
    (hpair : t.engRead e (pairAddr d ix) 2 = (u, .ok [p, q])) :
    s.elemNum e d ix = (u, .ok (dxbValue (dEight d)
      (if dEight d then x.toNat else x.toNat / 16 ^ (ix.headD 0 % 32 % 2) % 16) p.toNat q.toNat)) := by
  have hbyte : leNat [x] = x.toNat := by simp [leNat]
  have hlow : leNat [p, q] % 256 = p.toNat := by simp only [leNat]; omega
  have hhigh : leNat [p, q] / 256 = q.toNat := by simp only [leNat]; omega
  simp only [State.elemNum, State.elemDxb, hd, hx, hpair, hbyte, hlow, hhigh, if_true]

/-- R65: of two DXB4 elements in a byte the one at the even position is the low half. -/
theorem nibble_eq (x : Byte) (i : Nat) :
    x.toNat / 16 ^ (i % 2) % 16 = if i % 2 = 0 then x.toNat % 16 else x.toNat / 16 := by
  split
  · next heven => rw [heven, Nat.pow_zero, Nat.div_one]
  · next hodd =>
    rw [Nat.mod_two_ne_zero.mp hodd, Nat.pow_one]
    omega

/-- Settles O55: the addresses that the rules give are those that the engines read, format by format. -/
theorem elementsLieWhereTheyShould : Obligations.ElementsLieWhereTheyShould := by
  intro d ix s e _ base b off i block pair
  have hoff : blockOff d ix = off := blockOff_eq d ix
  have hblock : blockAddr d ix = block := by rw [blockAddr_eq, hoff]
  have hpair : pairAddr d ix = pair := by rw [pairAddr_eq, hoff]
  refine ⟨fun h3 h4 bs t hread => ?_, fun h3 x t p q u hx hp => ?_, fun h4 x t p q u hx hp => ?_⟩
  · rw [← elemAddr_eq] at hread
    exact State.elemNum_of_engRead (by simp [dDxb, h3, h4]) hread
  · have hwidth : dEight d = true := by simp [dEight, h3]
    rw [← hblock] at hx
    rw [← hpair] at hp
    have hvalue := State.elemNum_of_engRead_dxb (s := s) (by simp [dDxb, h3]) (by rwa [hwidth]) hp
    rwa [hwidth] at hvalue
  · have hwidth : dEight d = false := by simp [dEight, h4]
    rw [← hblock] at hx
    rw [← hpair] at hp
    have hvalue := State.elemNum_of_engRead_dxb (s := s) (by simp [dDxb, h4]) (by rwa [hwidth]) hp
    rwa [hwidth, if_neg Bool.false_ne_true, nibble_eq] at hvalue

end Sys2Proof.Machine
end

section
/-! Admission (R328 to R330): what ADMIT checks before it takes a stream, and that its integer tests of R329 compare exact sums. -/

namespace Sys2Proof.Machine

/-! ### What the reads of admission leave unchanged -/

/-- A fold of steps that keep the streams keeps them. -/
theorem foldl_streams {α : Type} {f : State → α → State} (hf : ∀ s x, (f s x).streams = s.streams) (l : List α) (s : State) :
    (l.foldl f s).streams = s.streams := by
  induction l generalizing s with
  | nil => rfl
  | cons x r ih => rw [List.foldl_cons, ih, hf]

@[simp] theorem State.correct_streams (s : State) (p : Nat) : (s.correct p).streams = s.streams := by
  unfold State.correct
  split <;> rfl

@[simp] theorem State.meetFlaws_streams (s : State) (p n : Nat) : (s.meetFlaws p n).streams = s.streams := by
  refine foldl_streams (fun s f => ?_) _ s
  split
  · exact s.correct_streams _
  · split
    · split <;> rfl
    · rfl

@[simp] theorem State.touchBanks_streams (s : State) (p n : Nat) : (s.touchBanks p n).streams = s.streams := by
  refine foldl_streams (fun s q => ?_) _ s
  split <;> rfl

@[simp] theorem State.noteRead_streams (s : State) (p n : Nat) : (s.noteRead p n).streams = s.streams := by
  rw [State.noteRead, State.meetFlaws_streams, State.touchBanks_streams]

@[simp] theorem State.meetWalk_streams (s : State) (reads : List Nat) : (s.meetWalk reads).streams = s.streams :=
  foldl_streams (fun s a => s.meetFlaws_streams a 8) reads s

@[simp] theorem State.hear_streams (s : State) (p n : Nat) : (s.hear p n).streams = s.streams := rfl

@[simp] theorem State.agentTouch_streams (s : State) (ctx : Nat) (va : Word) (eng : Bool) (n : Nat) :
    (s.agentTouch ctx va eng n).streams = s.streams := by
  refine foldl_streams (fun s p => ?_) _ s
  dsimp only
  split
  · rw [State.noteRead_streams, State.hear_streams, State.meetWalk_streams]
  · exact s.meetWalk_streams _

@[simp] theorem State.admitTouch_streams (s : State) (a : Word) : (s.admitTouch a).streams = s.streams := by
  unfold State.admitTouch
  split
  · rfl
  · simp only [State.agentTouch_streams]

@[simp] theorem State.admitTouch_stream (s : State) (a : Word) (n : Nat) : (s.admitTouch a).stream n = s.stream n := by
  rw [State.stream, State.admitTouch_streams, State.stream]

@[simp] theorem State.engineRecord_stream (s : State) (ctx : Nat) (card : BitVec 32) (wid : Word) (cluster : Nat) (code : BitVec 5)
    (fatal replay : Bool) (addr : Word) (extra n : Nat) :
    (s.engineRecord ctx card wid cluster code fatal replay addr extra).stream n = s.stream n := rfl

/-! ### The checks that an admitted stream has passed (R328) -/

theorem firstBad_eq_none {α : Type} {l : List (Bool × α)} : firstBad l = none ↔ ∀ p ∈ l, p.1 = false := by
  induction l with
  | nil => simp [firstBad]
  | cons p r ih =>
    obtain ⟨b, a⟩ := p
    cases b <;> simp [firstBad, ih]

@[simp] theorem State.admitStream_rec (s : State) (n : Nat) (r d : List Word) : ((s.admitStream n r d).stream n).rec' = r := by
  unfold State.admitStream
  rw [State.stream_updStream_same]

@[simp] theorem State.admitStream_odesc (s : State) (n : Nat) (r d : List Word) : ((s.admitStream n r d).stream n).odesc = d := by
  unfold State.admitStream
  rw [State.stream_updStream_same]

/-- R328: an idle stream whose records pass every check is admitted with them. -/
theorem State.admitCmd_ok {s : State} {n : Nat} {c : Option Nat} {r d : List Word} (hidle : (s.stream n).state = 0)
    (hok : s.admitChecks n (s.stream n).srec = (c, .ok (r, d))) :
    s.admitCmd n = (s.admitTouch (s.stream n).srec).admitStream n r d := by
  simp only [State.admitCmd, hidle, hok, ne_eq, not_true_eq_false, if_false]

/-- R328: the STATE of an idle stream that a check refuses stays 0. -/
theorem State.admitCmd_error {s : State} {n : Nat} {c : Option Nat} {x : Refused} (hidle : (s.stream n).state = 0)
    (herr : s.admitChecks n (s.stream n).srec = (c, .error x)) : ((s.admitCmd n).stream n).state = 0 := by
  have hrej : ∀ k, (((s.admitTouch (s.stream n).srec).updStream n fun t => { t with rej := k }).stream n).state = 0 := fun k => by
    rw [State.stream_updStream_same, State.admitTouch_stream, hidle]
  simp only [State.admitCmd, hidle, herr, ne_eq, not_true_eq_false, if_false]
  cases x with
  | rej k => exact hrej k
  | silent => exact hrej 1
  | record code a e =>
    cases c with
    | none => exact hrej 1
    | some c =>
      dsimp only
      split
      · rw [State.engineRecord_stream, hrej]
      · exact hrej 1

/-- ADMIT takes an idle stream only with two records that pass every check, and these are its snapshots (R327). -/
theorem State.admitCmd_admits {s : State} {n : Nat} (hidle : (s.stream n).state = 0)
    (hadm : ((s.admitCmd n).stream n).state = 1) :
    ∃ c, s.admitChecks n (s.stream n).srec
      = (c, .ok (((s.admitCmd n).stream n).rec', ((s.admitCmd n).stream n).odesc)) := by
  rcases hchecks : s.admitChecks n (s.stream n).srec with ⟨c, x | ⟨r, d⟩⟩
  · rw [State.admitCmd_error hidle hchecks] at hadm
    cases hadm
  · rw [State.admitCmd_ok hidle hchecks, State.admitStream_rec, State.admitStream_odesc]
    exact ⟨c, rfl⟩

/-- Records that pass admission's checks pass those of the stream record's own fields and of the loads. -/
theorem State.admitChecks_ok {s : State} {n : Nat} {a : Word} {c : Option Nat} {r d : List Word}
    (h : s.admitChecks n a = (c, .ok (r, d))) : firstBad (s.srRanges r d) = none ∧ s.loadBad n r d = none := by
  unfold State.admitChecks at h
  -- the stream record is read, at an aligned address of owner 0x00
  split at h
  · cases h
  dsimp only at h
  split at h
  · cases h
  split at h
  · cases h
  -- the output descriptor is read, and no reserved field is set
  split at h
  · cases h
  split at h
  · cases h
  · cases h
  -- the fields of the output descriptor, then those of the stream record
  split at h
  · cases h
  split at h
  · cases h
  rename_i hranges
  -- the templates, then the loads
  split at h
  · cases h
  · cases h
  split at h
  · cases h
  · next hload =>
    cases h
    exact ⟨hranges, hload⟩

/-- TFRAME of a record that admission accepts is not zero. -/
theorem State.srFrame_pos {s : State} {r d : List Word} (h : firstBad (s.srRanges r d) = none) : 0 < srFrame r := by
  have hframe := firstBad_eq_none.mp h (srFrame r == 0 || decide (srFrame r < odNS d * srStrip r), 3, 0) (by simp [State.srRanges])
  simp only [Bool.or_eq_false_iff, beq_eq_false_iff_ne] at hframe
  exact Nat.pos_of_ne_zero hframe.1

/-! ### The integer tests of R329 compare exact sums -/

/-- The load that a numerator and a denominator stand for. -/
def loadRat (p : Nat × Nat) : Rat := (p.1 : Rat) / (p.2 : Rat)

/-- The product of the denominators of loads, as the tests of R329 take it. -/
def commonDen (ls : List (Nat × Nat)) : Nat := ls.foldl (fun a p => a * p.2) 1

/-- The numerators of loads over their common denominator, added up. -/
def numerators (ls : List (Nat × Nat)) : Nat := ls.foldl (fun a p => a + p.1 * (commonDen ls / p.2)) 0

/-- A product of positive denominators is positive, and each of its factors divides it. -/
theorem foldl_den_spec {ls : List (Nat × Nat)} (hpos : ∀ p ∈ ls, 0 < p.2) {a : Nat} (ha : 0 < a) :
    0 < ls.foldl (fun a p => a * p.2) a ∧ a ∣ ls.foldl (fun a p => a * p.2) a
      ∧ ∀ p ∈ ls, p.2 ∣ ls.foldl (fun a p => a * p.2) a := by
  induction ls generalizing a with
  | nil => exact ⟨ha, Nat.dvd_refl a, fun p hp => absurd hp List.not_mem_nil⟩
  | cons q r ih =>
    obtain ⟨hq, hr⟩ := List.forall_mem_cons.mp hpos
    obtain ⟨hall, hstart, hrest⟩ := ih hr (Nat.mul_pos ha hq)
    exact ⟨hall, Nat.dvd_trans (Nat.dvd_mul_right a q.2) hstart,
      List.forall_mem_cons.mpr ⟨Nat.dvd_trans (Nat.dvd_mul_left q.2 a) hstart, hrest⟩⟩

theorem commonDen_pos {ls : List (Nat × Nat)} (hpos : ∀ p ∈ ls, 0 < p.2) : 0 < commonDen ls :=
  (foldl_den_spec hpos Nat.one_pos).1

theorem dvd_commonDen {ls : List (Nat × Nat)} (hpos : ∀ p ∈ ls, 0 < p.2) : ∀ p ∈ ls, p.2 ∣ commonDen ls :=
  (foldl_den_spec hpos Nat.one_pos).2.2

/-- A load's numerator over a denominator `all` that its own divides. -/
theorem natCast_numerator {all : Nat} {p : Nat × Nat} (hpos : 0 < p.2) (hdvd : p.2 ∣ all) :
    ((p.1 * (all / p.2) : Nat) : Rat) = all * loadRat p := by
  obtain ⟨k, rfl⟩ := hdvd
  have hne : ((p.2 : Nat) : Rat) ≠ 0 := fun h => Nat.ne_of_gt hpos (Rat.natCast_eq_zero_iff.mp h)
  rw [Nat.mul_div_cancel_left k hpos, loadRat, Rat.natCast_mul, Rat.natCast_mul]
  calc (p.1 : Rat) * k = p.1 / p.2 * p.2 * k := by rw [Rat.div_mul_cancel hne]
    _ = p.2 * k * (p.1 / p.2) := by rw [Rat.mul_assoc, Rat.mul_comm]

theorem natCast_foldl_numerators {all : Nat} {ls : List (Nat × Nat)} (hpos : ∀ p ∈ ls, 0 < p.2)
    (hdvd : ∀ p ∈ ls, p.2 ∣ all) (a : Nat) :
    ((ls.foldl (fun a p => a + p.1 * (all / p.2)) a : Nat) : Rat) = a + all * (ls.map loadRat).sum := by
  induction ls generalizing a with
  | nil => rw [List.foldl_nil, List.map_nil, List.sum_nil, Rat.mul_zero, Rat.add_zero]
  | cons q r ih =>
    obtain ⟨hq, hr⟩ := List.forall_mem_cons.mp hpos
    obtain ⟨hqall, hrall⟩ := List.forall_mem_cons.mp hdvd
    rw [List.foldl_cons, ih hr hrall, Rat.natCast_add, natCast_numerator hq hqall, List.map_cons, List.sum_cons, Rat.mul_add,
      Rat.add_assoc]

/-- The numerators of loads add up to their common denominator times the exact sum. -/
theorem natCast_numerators {ls : List (Nat × Nat)} (hpos : ∀ p ∈ ls, 0 < p.2) :
    (numerators ls : Rat) = commonDen ls * (ls.map loadRat).sum := by
  rw [numerators, natCast_foldl_numerators hpos (dvd_commonDen hpos), Rat.natCast_ofNat, Rat.zero_add]

/-- A limit `b` / `a` holds for the exact sum of loads when it holds over their common denominator. -/
theorem sum_loads_le {a b : Nat} {lim : Rat} (ha : 0 < a) (hlim : (a : Rat) * lim = b) {ls : List (Nat × Nat)}
    (hpos : ∀ p ∈ ls, 0 < p.2) (h : a * numerators ls ≤ b * commonDen ls) : (ls.map loadRat).sum ≤ lim := by
  have hscale : (0 : Rat) < (a * commonDen ls : Nat) := Rat.natCast_pos.mpr (Nat.mul_pos ha (commonDen_pos hpos))
  refine Rat.le_of_mul_le_mul_left ?_ hscale
  calc ((a * commonDen ls : Nat) : Rat) * (ls.map loadRat).sum
      = (a * numerators ls : Nat) := by rw [Rat.natCast_mul, Rat.natCast_mul, natCast_numerators hpos, Rat.mul_assoc]
    _ ≤ (b * commonDen ls : Nat) := Rat.natCast_le_natCast.mpr h
    _ = (a * commonDen ls : Nat) * lim := by
      rw [Rat.natCast_mul, Rat.natCast_mul, ← hlim, Rat.mul_assoc, Rat.mul_assoc, Rat.mul_comm lim]

theorem capacityOver_eq (ls : List (Nat × Nat)) : capacityOver ls = decide (17 * commonDen ls < 20 * numerators ls) := rfl

/-- R329: loads that pass the capacity test take at most 0.85 of their core's time. -/
theorem sum_le_of_not_capacityOver {ls : List (Nat × Nat)} (hpos : ∀ p ∈ ls, 0 < p.2) (h : capacityOver ls = false) :
    (ls.map loadRat).sum ≤ 17 / 20 := by
  rw [capacityOver_eq, decide_eq_false_iff_not, Nat.not_lt] at h
  exact sum_loads_le (a := 20) (b := 17) (by decide) (by decide +kernel) hpos h

/-- Pixels of a frame over its period in ns, as pixels of a second. -/
def perSecond (p : Nat × Nat) : Nat × Nat := (p.1 * 1000000000, p.2)

theorem encoderOver_eq (ls : List (Nat × Nat)) :
    encoderOver ls = decide (7962624000 * commonDen (ls.map perSecond) < numerators (ls.map perSecond)) := by
  simp only [encoderOver, commonDen, numerators, List.foldl_map, perSecond]

/-- R329: streams that pass the encoders' test take at most 7,962,624,000 pixels per second. -/
theorem sum_le_of_not_encoderOver {ls : List (Nat × Nat)} (hpos : ∀ p ∈ ls, 0 < p.2) (h : encoderOver ls = false) :
    ((ls.map perSecond).map loadRat).sum ≤ 7962624000 := by
  rw [encoderOver_eq, decide_eq_false_iff_not, Nat.not_lt] at h
  exact sum_loads_le (a := 1) (b := 7962624000) Nat.one_pos (by decide +kernel) (List.forall_mem_map.mpr hpos)
    (by rwa [Nat.one_mul])

/-! ### Admission (R329) -/

theorem bitAt_eq_getLsbD (w : Word) (i : Nat) : bitAt w i = w.getLsbD i := by
  rw [Bool.eq_iff_iff, bitAt, beq_iff_eq, BitVec.getLsbD, Nat.testBit_eq_decide_div_mod_eq, decide_eq_true_iff]

theorem contains_srCores (r : List Word) {i : Nat} (hi : i < 8) :
    (srCores r).contains i = (wordAt r 0).getLsbD (24 + i) := by
  rw [Bool.eq_iff_iff, List.contains_iff_mem, srCores, List.mem_filter, List.mem_range, bitAt_eq_getLsbD, and_iff_right hi]

/-- Streams other than `n` that load core `i` of a stream: those in use that name it in the same cluster. -/
def State.coreMates (s : State) (n : Nat) (t : Stream) (i : Nat) : List Stream :=
  (s.usedStreams n).filter fun o => odCluster o.odesc == odCluster t.odesc && (wordAt o.rec' 0).getLsbD (24 + i)

/-- Streams other than `n` in use of the encoders. -/
def State.encoderMates (s : State) (n : Nat) : List Stream := (s.usedStreams n).filter fun o => odCons o.odesc == 0

/-- The load of a stream on its cores, as the capacity test takes it. -/
def Stream.load (t : Stream) : Nat × Nat := srLoad t.rec' t.odesc

/-- The pixels of a stream's frame over its period, as the encoders' test takes them. -/
def Stream.frameLoad (t : Stream) : Nat × Nat := (odOW t.odesc * odOH t.odesc, srFrame t.rec')

theorem share_eq_loadRat : Claim.share = loadRat ∘ Stream.load := rfl

theorem pixels_eq_loadRat : Claim.pixels = (loadRat ∘ perSecond) ∘ Stream.frameLoad := by
  funext t
  simp only [Claim.pixels, loadRat, perSecond, Stream.frameLoad, odOW, odOH, srFrame, Function.comp_apply]

/-- The last rows of R328: with loads that pass, every core of the stream passes the capacity test, and an encoder's stream
the encoders' test. -/
theorem State.loadBad_none {s : State} {n : Nat} {t : Stream} (h : s.loadBad n t.rec' t.odesc = none) :
    (∀ i, i < 8 → (wordAt t.rec' 0).getLsbD (24 + i) = true → capacityOver ((t :: s.coreMates n t i).map Stream.load) = false)
    ∧ (odCons t.odesc = 0 → encoderOver ((t :: s.encoderMates n).map Stream.frameLoad) = false) := by
  simp only [State.loadBad] at h
  split at h
  · cases h
  split at h
  · cases h
  split at h
  · cases h
  next henc hcap =>
  refine ⟨fun i hi hcore => ?_, fun hcons => Bool.eq_false_iff.mpr fun hover => henc ⟨hcons, hover⟩⟩
  have hmem : i ∈ srCores t.rec' := by rwa [← List.contains_iff_mem, contains_srCores _ hi]
  have hfits := List.any_eq_false.mp (Bool.eq_false_iff.mpr hcap) i hmem
  simp only [contains_srCores _ hi] at hfits
  exact Bool.eq_false_iff.mpr hfits

theorem exec_streamAdmit {n : Nat} (hn : n < 64) (s : State) : exec (.streamAdmit n) s = .next (s.admitCmd n) :=
  if_pos hn

/-- Settles O56: the loads that admission tests are the shares and the pixels of R329, and its integer tests compare their
exact sums with the limits. -/
theorem admissionKeepsCapacity : Obligations.AdmissionKeepsCapacity := by
  intro s t n hn hidle hexec hadm hframes new others
  rw [exec_streamAdmit hn] at hexec
  cases hexec
  obtain ⟨c, hchecks⟩ := State.admitCmd_admits hidle hadm
  obtain ⟨hranges, hload⟩ := State.admitChecks_ok hchecks
  obtain ⟨hcap, henc⟩ := State.loadBad_none (t := new) hload
  have hothers : ∀ o ∈ others, 0 < srFrame o.rec' := fun o ho => by
    obtain ⟨p, hp, rfl⟩ := List.mem_map.mp ho
    obtain ⟨hmem, hused⟩ := List.mem_filter.mp hp
    exact hframes p hmem (bne_iff_ne.mp (Bool.and_eq_true_iff.mp hused).2)
  have hpos : ∀ q : Stream → Bool, ∀ o ∈ new :: others.filter q, 0 < srFrame o.rec' := fun q =>
    List.forall_mem_cons.mpr ⟨State.srFrame_pos hranges, fun o ho => hothers o (List.mem_filter.mp ho).1⟩
  refine ⟨fun i hi hcore => ?_, fun hcons => ?_⟩
  · have hsum := sum_le_of_not_capacityOver (List.forall_mem_map.mpr (hpos _)) (hcap i hi hcore)
    rw [List.map_map, ← share_eq_loadRat, List.map_cons, List.sum_cons] at hsum
    exact hsum
  · have hsum := sum_le_of_not_encoderOver (List.forall_mem_map.mpr (hpos _)) (henc hcons)
    rw [List.map_map, List.map_map, ← pixels_eq_loadRat, List.map_cons, List.sum_cons] at hsum
    exact hsum

end Sys2Proof.Machine
end
